-- ==== Sys2Proof/Word.lean ====
section
/-! DEFINITION. The word types of the Modbus RTU Core: a frame byte, a 16-bit CRC or register value, a
32-bit host word (R13, R23, R53). Every value is unsigned. -/

namespace Sys2Proof

/-- A frame byte, an opcode, an 8-bit operand. -/
abbrev Byte := BitVec 8

/-- A CRC accumulator or a Modbus register value. -/
abbrev Half := BitVec 16

/-- A host word. -/
abbrev Word := BitVec 32

end Sys2Proof
end

