-- ==== Sys2Proof/Syntax.lean ====
section
/-! DEFINITION. The fourteen commands, one constructor per row of spec/opcode_table.json (R76), each with the
two operand fields A8 and B8 of its command word (R72). The operands A16 and B16 are in the register ARG, not
in the word (R73). A field R73 marks "-" is carried too, so that a term is a whole word; its meaning does not
receive it (R78; log 17). -/

namespace Sys2Proof

/-- A command. -/
inductive Instr where
  | crcInit (a8 b8 : Byte)
  | crcByte (b b8 : Byte)
  | crcTx (a8 b8 : Byte)
  | crcRx (a8 b8 : Byte)
  | encRaw (a f : Byte)
  | encRhr (a b8 : Byte)
  | encWmr (a b8 : Byte)
  | encUnl (a b8 : Byte)
  | dec (a8 b8 : Byte)
  | chk (a8 b8 : Byte)
  | openPort (a8 b8 : Byte)
  | closePort (a8 b8 : Byte)
  | xchg (a8 b8 : Byte)
  | send (a8 b8 : Byte)
deriving DecidableEq, Repr

end Sys2Proof
end

