-- ==== Sys2Proof/WellFormed.lean ====
section
/-! DEFINITION. Which command words are legal (R77). Every term of `Instr` is well-formed by its type, since
R72 admits every value of A8 and B8; what can be ill-formed is a command word. These checks are written from
R77's list of illegal words, the decoder from R76's list of opcodes, so each checks the other. -/

namespace Sys2Proof

/-- R77: CMD[31:24] must be 0. -/
def WellFormed.reservedClear (w : Word) : Bool := w.toNat / 2 ^ 24 == 0

/-- R77: OP must not be 0x00, 0x05 to 0x0F, 0x14 to 0x1F, 0x22 to 0x2F or 0x34 to 0xFF. -/
def WellFormed.opcodeAssigned (w : Word) : Bool :=
  let op := w.toNat % 256
  !(op == 0x00 || (0x05 ≤ op && op ≤ 0x0F) || (0x14 ≤ op && op ≤ 0x1F) || (0x22 ≤ op && op ≤ 0x2F) ||
    0x34 ≤ op)

/-- A legal command word. -/
def WellFormed.commandWord (w : Word) : Bool :=
  WellFormed.reservedClear w && WellFormed.opcodeAssigned w

end Sys2Proof
end

