-- ==== Sys2Proof/Decode.lean ====
section
/-! DEFINITION. Decoding a command word (R72, R76, R77), total on every word, and the encoder. -/

namespace Sys2Proof

/-- Why a word is no command (R77). The engine completes such a word with IllegalCommand. -/
inductive DecodeError where
  /-- CMD[31:24] ≠ 0. -/
  | reservedNonZero
  /-- OP is not in R76's map. -/
  | unassignedOpcode
deriving DecidableEq, Repr

/-- OP = CMD[7:0], R72. -/
def fieldOp (w : Word) : Byte := w.extractLsb' 0 8

/-- A8 = CMD[15:8], R72. -/
def fieldA8 (w : Word) : Byte := w.extractLsb' 8 8

/-- B8 = CMD[23:16], R72. -/
def fieldB8 (w : Word) : Byte := w.extractLsb' 16 8

/-- RSV = CMD[31:24], R72. -/
def fieldRsv (w : Word) : Byte := w.extractLsb' 24 8

/-- R76's opcode map, with the operands `a` = A8 and `b` = B8. -/
def decodeOp (op a b : Byte) : Option Instr :=
  match op.toNat with
  | 0x01 => some (.crcInit a b)
  | 0x02 => some (.crcByte a b)
  | 0x03 => some (.crcTx a b)
  | 0x04 => some (.crcRx a b)
  | 0x10 => some (.encRaw a b)
  | 0x11 => some (.encRhr a b)
  | 0x12 => some (.encWmr a b)
  | 0x13 => some (.encUnl a b)
  | 0x20 => some (.dec a b)
  | 0x21 => some (.chk a b)
  | 0x30 => some (.openPort a b)
  | 0x31 => some (.closePort a b)
  | 0x32 => some (.xchg a b)
  | 0x33 => some (.send a b)
  | _ => none

/-- The command a word stands for, or why it is none (R76, R77). -/
def decode (w : Word) : Except DecodeError Instr :=
  if fieldRsv w = 0 then
    match decodeOp (fieldOp w) (fieldA8 w) (fieldB8 w) with
    | some i => .ok i
    | none => .error .unassignedOpcode
  else .error .reservedNonZero

/-- The command word {RSV = 0, B8, A8, OP} (R72). -/
def commandWord (op a8 b8 : Byte) : Word := 0#8 ++ b8 ++ a8 ++ op

/-- The opcode of a command (R76). -/
def opcodeOf : Instr → Byte
  | .crcInit _ _ => 0x01
  | .crcByte _ _ => 0x02
  | .crcTx _ _ => 0x03
  | .crcRx _ _ => 0x04
  | .encRaw _ _ => 0x10
  | .encRhr _ _ => 0x11
  | .encWmr _ _ => 0x12
  | .encUnl _ _ => 0x13
  | .dec _ _ => 0x20
  | .chk _ _ => 0x21
  | .openPort _ _ => 0x30
  | .closePort _ _ => 0x31
  | .xchg _ _ => 0x32
  | .send _ _ => 0x33

/-- A8 and B8 of a command (R72). -/
def operandsOf : Instr → Byte × Byte
  | .crcInit a b | .crcByte a b | .crcTx a b | .crcRx a b | .encRaw a b | .encRhr a b | .encWmr a b
  | .encUnl a b | .dec a b | .chk a b | .openPort a b | .closePort a b | .xchg a b | .send a b => (a, b)

/-- The command word of a command (R72, R76). -/
def encode (i : Instr) : Word := commandWord (opcodeOf i) (operandsOf i).1 (operandsOf i).2

/-- The command read from a table row's word: its `nbits` low bits, every higher bit 0. A word on the host port
is written whole (R53), so there is no byte order to choose. -/
def decodeTableWord (nbits w : Nat) : Option Instr :=
  match decode (BitVec.ofNat 32 (w % 2 ^ nbits)) with
  | .ok i => some i
  | .error _ => none

end Sys2Proof
end

