-- ==== Sys2Proof/Config.lean ====
section
/-! DEFINITION. What one Modbus RTU Core fixes: the parameters of 00_scope.md rule R11, the model's unit of
time, the open parameters, what its surroundings can do, and the free values. A free value is opaque: nothing can
evaluate it. -/

namespace Sys2Proof.Machine

/-- What host, line and platform can do to the block (R18, R19, R48, R52, R147). -/
inductive Input where
  /-- The host writes the word `wdata` at `paddr` (R52). -/
  | write (paddr : BitVec 12) (wdata : Word)
  /-- The host reads the word at `paddr` (R52). -/
  | read (paddr : BitVec 12)
  /-- `CMD_LATENCY` has passed: the engine executes the accepted command now (R136; log 4). -/
  | engine
  /-- `ticks` pass, the line staying as it is (log 1). -/
  | wait (ticks : Nat)
  /-- Another device's character begins: the start bit of `data`, `parity`, `stop` (R19, R109). -/
  | charStart (data : Byte) (parity stop : Bool)
  /-- The pin `rst_n` is driven to `level` (R147). -/
  | rst (level : Bool)
  /-- The pin `phy_ok` is driven to `level` (R48). -/
  | phy (level : Bool)
deriving DecidableEq, Repr

end Sys2Proof.Machine

namespace Sys2Proof.Config

/-- `MIN_FRAME`, R11, R12. -/
abbrev minFrame : Nat := 4

/-- `BUF_BYTES`, R11: entries of TXBUF and of RXBUF. -/
abbrev bufBytes : Nat := 256

/-- `WVAL_WORDS`, R11: entries of WVAL and the largest ENC.WMR count. -/
abbrev wvalWords : Nat := 123

/-- `RAW_PAYLOAD_MAX`, R11. -/
abbrev rawPayloadMax : Nat := 252

/-- The largest valid device address, R11. -/
abbrev addressMax : Nat := 247

/-- `SILENCE_RESET` in bit times, R11. -/
abbrev silenceReset : Nat := 39

/-- `TIMEOUT_RESET` in milliseconds, R11. -/
abbrev timeoutReset : Nat := 1000

/-- `CHAR_BITS`, R11: start, 8 data, parity and stop bit. -/
abbrev charBits : Nat := 11

/-- Ticks of one bit time `Tb` = 1/9600 s. DESIGN CHOICE (log 1): a tick is 1/48000 s, the largest unit in
which both `Tb` and a millisecond are whole. Unsafe: events off this grid are not in the model. -/
abbrev ticksPerBit : Nat := 5

/-- Ticks of one millisecond (log 1). -/
abbrev ticksPerMs : Nat := 48

/-- Ticks of one character, `Tc` = 11 `Tb` (R17). -/
abbrev ticksPerChar : Nat := charBits * ticksPerBit

/-- `CLK_HZ`, open (R11, D47, I-4): no rule reads it. -/
opaque clkHz : Nat

/-- `BASE`, open (R65, D3, I-5): where the platform places the block. -/
opaque base : Nat

/-- FREE VALUE (R60, I-1; log 5): what a buffer byte nothing has written since the `epoch`-th reset holds. -/
opaque unwritten (epoch address : Nat) : Byte

/-- FREE VALUE (R46, I-2; log 6): what the `n`-th read of an unspecified register returns. -/
opaque freeWord (n : Nat) : Word

/-- FREE VALUE (R19, I-7; log 2): the `n`-th burst of what host, line and platform do where nothing is known of
them. A burst is a list of any length, and a tick follows it. -/
opaque furtherInputs (n : Nat) : List Machine.Input

end Sys2Proof.Config
end

