-- ==== Sys2Proof/Machine/State.lean ====
section
/-! DEFINITION. The state of the Modbus RTU Core as plain data: every register, flag, buffer, hidden item and
input pin of 10_state.md and 20_memory.md, the line, and the model's own three fields. -/

namespace Sys2Proof.Machine

/-- STATUS.PHASE (R32); the values 6 and 7 are never produced (I-8). -/
inductive Phase where
  | idle | exec | waitIdle | tx | rxWait | rxActive
deriving DecidableEq, Repr

/-- The result codes of R132; 0x0E to 0xFF are never produced (I-8). -/
inductive ResultCode where
  | ok | connectFailed | timeout | partialFrame | frameTooShort | crcMismatch | deviceException
  | unexpectedAddress | unexpectedFunction | illegalCommand | notOpen | lengthError | invalidAddress
  | rxOverflow
deriving DecidableEq, Repr

/-- RESULT.KIND (R42); 3 is never produced (I-8). -/
inductive Kind where
  | none | data | exception
deriving DecidableEq, Repr

/-- The register RESULT (R42): its named fields; RESULT[31:26] is reserved and reads 0. -/
structure DecodedHeader where
  kind : Kind
  excode : Byte
  func : Byte
  addr : Byte
deriving DecidableEq, Repr

/-- RESULT = 0. -/
def DecodedHeader.clear : DecodedHeader := { kind := .none, excode := 0, func := 0, addr := 0 }

/-- A character of another device in progress on `rxd` (R109): its 8 data bits, its parity bit and its stop bit
as the line sends them, the ticks since its start bit began, and whether the receiver has been enabled ever
since (R113). -/
structure LineChar where
  data : Byte
  parity : Bool
  stop : Bool
  elapsed : Nat
  heard : Bool
deriving DecidableEq, Repr

/-- The transmitter's shift state (R47, R112): the 11 bits of the character on `txd`, bit 0 first, and the ticks
since its start bit began. -/
structure TxShift where
  bits : BitVec 11
  elapsed : Nat
deriving DecidableEq, Repr

/-- What follows once `inputs` is used up (R19, R160, I-6, I-7; log 2). -/
inductive Later where
  /-- An idle host and a line that stays as it is, for ever. -/
  | quiet
  /-- The same inputs over and over, a tick after each time. -/
  | again (acts : List Input)
  /-- Anything: the free values `Config.furtherInputs` from the `n`-th on. -/
  | unknown (n : Nat)
deriving DecidableEq, Repr

/-- No command, access or line event of this block is a fault: "the hardware has no trap"
(93_implementation_defined.md), no access reports an error (R52) and nothing traps (R54). So there is no fault
reason, and nothing raises one. -/
inductive Fault where
deriving DecidableEq, Repr

/-- Why a command has no meaning in the model. -/
inductive Refusal where
  /-- Raised by `exec` for a command with no meaning yet; none is left. Safe: the machine stops. -/
  | notModelled (mnemonic : String)
deriving DecidableEq, Repr

/-- The contents of TXBUF, RXBUF and WVAL (R58): the bytes written since the last reset, by byte offset in the
host address space, offsets strictly rising. An unlisted offset holds no value of its own: reading it gives the
free value `Config.unwritten` (R60; log 5). -/
abbrev Memory := List Host.Cell

/-- The whole machine. -/
structure State where
  /-- CTRL.IE, R24. -/
  ie : Bool
  /-- STATUS.BUSY, R25. -/
  busy : Bool
  /-- STATUS.DONE, R26. -/
  done : Bool
  /-- STATUS.OPEN, R27. -/
  opened : Bool
  /-- STATUS.WBUSY, R28. -/
  wbusy : Bool
  /-- STATUS.RXERR, R29. -/
  rxerr : Bool
  /-- STATUS.LATE, R30. -/
  late : Bool
  /-- STATUS.CODE, R31. -/
  code : ResultCode
  /-- STATUS.PHASE, R32. -/
  phase : Phase
  /-- CMD, R34. -/
  cmd : Word
  /-- ARG, R35. -/
  arg : Word
  /-- CRC.VALUE, R36. -/
  crc : Half
  /-- TIMEOUT.MS, R37. -/
  timeout : Half
  /-- SILENCE.BITS, R38. -/
  silence : Half
  /-- REQ.RADDR, R39. -/
  raddr : Byte
  /-- REQ.RFUNC, R39. -/
  rfunc : Byte
  /-- TXLEN.LEN, R40. -/
  txlen : BitVec 9
  /-- RXLEN.LEN, R41. -/
  rxlen : BitVec 9
  /-- RESULT, R42. -/
  result : DecodedHeader
  /-- RPLEN.LEN, R43. -/
  rplen : BitVec 9
  /-- TXBUF, RXBUF and WVAL, R58. -/
  mem : Memory
  /-- Hidden: the opcode of the command in progress, R47. -/
  op : Option Byte
  /-- Hidden: ticks since the last character ended or the port opened, R47, R110. -/
  idle : Nat
  /-- Hidden: ticks since the last stop bit of an XCHG ended, R47, R117. -/
  resp : Nat
  /-- Hidden: a character of this exchange was dropped, R47, R114. -/
  ovf : Bool
  /-- Hidden: index of the next TXBUF byte to transmit, R47, R112. -/
  k : Nat
  /-- Line and receiver shift state: the character in progress on `rxd`, R47, R109, R113. -/
  lineChar : Option LineChar
  /-- Hidden: the transmitter's shift state, R47, R112. -/
  txShift : Option TxShift
  /-- Pin `rst_n`: false while the block is in reset, R147. -/
  rstN : Bool
  /-- Pin `phy_ok`, R48. -/
  phyOk : Bool
  /-- Pin `prdata`: the word of the last read, R49, R52 (log 13). -/
  prdata : Word
  /-- MODEL's own: the number of unspecified reads so far (log 6). -/
  draws : Nat
  /-- MODEL's own: the number of resets so far (log 5). -/
  epoch : Nat
  /-- MODEL's own: what host, line and platform do next, first to last (log 2). -/
  inputs : List Input
  /-- MODEL's own: what they do after that (log 2). -/
  later : Later
deriving DecidableEq, Repr

/-- The machine right after reset (R148, R47, R49). `phyOk` and the model's own fields are DESIGN CHOICES
(log 12, log 18). -/
def State.reset : State where
  ie := false
  busy := false
  done := false
  opened := false
  wbusy := false
  rxerr := false
  late := false
  code := .ok
  phase := .idle
  cmd := 0
  arg := 0
  crc := 0xFFFF
  timeout := BitVec.ofNat 16 Config.timeoutReset
  silence := BitVec.ofNat 16 Config.silenceReset
  raddr := 0
  rfunc := 0
  txlen := 0
  rxlen := 0
  result := .clear
  rplen := 0
  mem := []
  op := none
  idle := 0
  resp := 0
  ovf := false
  k := 0
  lineChar := none
  txShift := none
  rstN := true
  phyOk := true
  prdata := 0
  draws := 0
  epoch := 0
  inputs := []
  later := .unknown 0

end Sys2Proof.Machine
end

