-- ==== Sys2Proof/Machine/Operands.lean ====
section
/-! DEFINITION. Operands: the bit fields and byte orders the rules use, the operand halves of ARG (R73), and the
places of the buffer entries and registers in the host address space (R23, R58, R80). -/

namespace Sys2Proof.Machine

/-- `lo8(v) = v[7:0]`, R14. -/
def lo8 (v : Half) : Byte := v.extractLsb' 0 8

/-- `hi8(v) = v[15:8]`, R14. -/
def hi8 (v : Half) : Byte := v.extractLsb' 8 8

/-- The 16-bit value `{hi, lo}`, R13. -/
def half (hi lo : Byte) : Half := hi ++ lo

/-- ARG.A16 = ARG[15:0], R35. -/
def argA (s : State) : Half := s.arg.extractLsb' 0 16

/-- ARG.B16 = ARG[31:16], R35. -/
def argB (s : State) : Half := s.arg.extractLsb' 16 16

/-- Offset of TXBUF[i], R58. -/
def txOffset (i : Nat) : Nat := 0x400 + 4 * i

/-- Offset of RXBUF[i], R58. -/
def rxOffset (i : Nat) : Nat := 0x800 + 4 * i

/-- Offset of WVAL[i], R58. Its bits 7:0 are the cell at this offset, its bits 15:8 the next one (log 14). -/
def wvalOffset (i : Nat) : Nat := 0x200 + 4 * i

/-- The register or buffer entry a host offset addresses, R23. -/
inductive HostReg where
  | ctrl | status | cmd | arg | crc | timeout | silence | req | txlen | rxlen | result | rplen
  | wval (i : Nat)
  | txbuf (i : Nat)
  | rxbuf (i : Nat)
  | reserved
deriving DecidableEq, Repr

/-- Which register the word number `n` = offset / 4 is, R23. -/
def hostRegOfWord (n : Nat) : HostReg :=
  match n with
  | 0 => .ctrl
  | 1 => .status
  | 2 => .cmd
  | 3 => .arg
  | 4 => .crc
  | 5 => .timeout
  | 6 => .silence
  | 7 => .req
  | 8 => .txlen
  | 9 => .rxlen
  | 10 => .result
  | 11 => .rplen
  | n =>
    if n < 0x80 then .reserved
    else if n < 0x80 + Config.wvalWords then .wval (n - 0x80)
    else if n < 0x100 then .reserved
    else if n < 0x200 then .txbuf (n - 0x100)
    else if n < 0x300 then .rxbuf (n - 0x200)
    else .reserved

/-- The register at a host byte offset: the two low bits are ignored, R54. -/
def hostRegAt (paddr : BitVec 12) : HostReg := hostRegOfWord (paddr.toNat / 4)

/-- Where the word at `paddr` is in the system (R65): relative to the platform's `BASE`. -/
def systemAddress (paddr : BitVec 12) : Nat := Config.base + paddr.toNat

end Sys2Proof.Machine
end

