-- ==== Sys2Proof/Machine/Flags.lean ====
section
/-! DEFINITION. The flags and the words made of fields: STATUS (R25 to R33), the result code's number (R132),
RESULT (R42), the write-one-to-clear bits (R33), the interrupt line (R137) and the transceiver pins (R50). -/

namespace Sys2Proof.Machine

/-- The number of a result code, R132. -/
def codeByte : ResultCode → Byte
  | .ok => 0x00
  | .connectFailed => 0x01
  | .timeout => 0x02
  | .partialFrame => 0x03
  | .frameTooShort => 0x04
  | .crcMismatch => 0x05
  | .deviceException => 0x06
  | .unexpectedAddress => 0x07
  | .unexpectedFunction => 0x08
  | .illegalCommand => 0x09
  | .notOpen => 0x0A
  | .lengthError => 0x0B
  | .invalidAddress => 0x0C
  | .rxOverflow => 0x0D

/-- The number of a phase, R32. -/
def phaseBits : Phase → BitVec 3
  | .idle => 0
  | .exec => 1
  | .waitIdle => 2
  | .tx => 3
  | .rxWait => 4
  | .rxActive => 5

/-- RESULT.KIND, R42. -/
def kindBits : Kind → BitVec 2
  | .none => 0
  | .data => 1
  | .exception => 2

/-- The word RESULT = {6'b0, KIND, EXCODE, FUNC, ADDR}, R42. -/
def resultWord (r : DecodedHeader) : Word := 0#6 ++ kindBits r.kind ++ r.excode ++ r.func ++ r.addr

/-- The word STATUS, R25 to R33: PHASE in 18:16, CODE in 15:8, LATE, RXERR, WBUSY, OPEN, DONE, BUSY in 5:0. -/
def statusWord (s : State) : Word :=
  0#13 ++ phaseBits s.phase ++ codeByte s.code ++ 0#2 ++ BitVec.ofBool s.late ++ BitVec.ofBool s.rxerr ++
    BitVec.ofBool s.wbusy ++ BitVec.ofBool s.opened ++ BitVec.ofBool s.done ++ BitVec.ofBool s.busy

/-- A host write of `v` to STATUS: DONE, WBUSY, RXERR and LATE are cleared where `v` has a 1, R33. -/
def clearStatus (v : Word) (s : State) : State :=
  { s with
    done := s.done && !v.getLsbD 1
    wbusy := s.wbusy && !v.getLsbD 3
    rxerr := s.rxerr && !v.getLsbD 4
    late := s.late && !v.getLsbD 5 }

/-- The pin `irq` = CTRL.IE & STATUS.DONE, R137. -/
def irq (s : State) : Bool := s.ie && s.done

/-- The pin `de`: 1 exactly in phase TX, R50, R112. -/
def de (s : State) : Bool := s.phase == .tx

/-- The pin `re_n`: 0 exactly when the port is open and the engine is not in phase TX, R50. -/
def reN (s : State) : Bool := !(s.opened && s.phase != .tx)

/-- The pin `pready`, R52. -/
def pready (_ : State) : Bool := true

/-- The pin `pslverr`, R52. -/
def pslverr (_ : State) : Bool := false

/-- The 11 bits of a character (R109), bit 0 first on the line: start 0, data least significant bit first,
parity, stop. -/
def characterBits (data : Byte) (parity stop : Bool) : BitVec 11 :=
  BitVec.ofBool stop ++ BitVec.ofBool parity ++ data ++ 0#1

/-- Even parity (R109): the exclusive or of the data bits. -/
def evenParity (d : Byte) : Bool :=
  d.getLsbD 0 ^^ d.getLsbD 1 ^^ d.getLsbD 2 ^^ d.getLsbD 3 ^^ d.getLsbD 4 ^^ d.getLsbD 5 ^^ d.getLsbD 6 ^^
    d.getLsbD 7

/-- The bit of a character on the line `elapsed` ticks after its start bit began, R109. -/
def bitAt (bits : BitVec 11) (elapsed : Nat) : Bool := bits.getLsbD (elapsed / Config.ticksPerBit)

/-- The pin `txd`: 1 outside a transmission (R50), else the bit being sent (R112). -/
def txd (s : State) : Bool :=
  match s.txShift with
  | some t => bitAt t.bits t.elapsed
  | none => true

/-- The pin `rxd`: the line is 1 between characters, R109. -/
def rxd (s : State) : Bool :=
  match s.lineChar with
  | some c => bitAt (characterBits c.data c.parity c.stop) c.elapsed
  | none => true

/-- The receiver's shift state (R47): the bits of the character being received that have passed. -/
def receiverBits (s : State) : List Bool :=
  match s.lineChar with
  | some c =>
    if c.heard then
      (List.range (c.elapsed / Config.ticksPerBit)).map
        (fun j => (characterBits c.data c.parity c.stop).getLsbD j)
    else []
  | none => []

end Sys2Proof.Machine
end

