-- ==== Sys2Proof/Machine/Ops.lean ====
section
/-! DEFINITION. The named operations every command is written over: the buffers in memory (R58, R60), ending a
command (R135), accepting one (R74), and reset (R147, R148). -/

namespace Sys2Proof.Machine

/-- The canonical form: offsets strictly rising. An unlisted offset has no value (log 5), so no entry can equal
what one reads as. -/
def Memory.wf : Memory → Bool
  | [] => true
  | [_] => true
  | c :: d :: m => decide (c.1 < d.1) && Memory.wf (d :: m)

/-- The byte written at an offset since the last reset, if any. -/
def Memory.get : Memory → Nat → Option Byte
  | [], _ => none
  | (b, w) :: m, a => if a = b then some w else Memory.get m a

/-- Write one byte, keeping the canonical form. -/
def Memory.set : Memory → Nat → Byte → Memory
  | [], a, v => [(a, v)]
  | (b, w) :: m, a, v =>
    if a < b then (a, v) :: (b, w) :: m
    else if a = b then (a, v) :: m
    else (b, w) :: Memory.set m a v

/-- Write bytes to TXBUF[i], TXBUF[i+1], ... -/
def Memory.setTx : Memory → Nat → List Byte → Memory
  | m, _, [] => m
  | m, i, b :: bs => Memory.setTx (Memory.set m (txOffset i) b) (i + 1) bs

/-- The byte at a buffer offset: what was written since the last reset, else the free value of R60, drawn once and
stable until written (I-1). -/
def byteAt (s : State) (a : Nat) : Byte := (s.mem.get a).getD (Config.unwritten s.epoch a)

/-- TXBUF[i], R58. -/
def txByte (s : State) (i : Nat) : Byte := byteAt s (txOffset i)

/-- RXBUF[i], R58. -/
def rxByte (s : State) (i : Nat) : Byte := byteAt s (rxOffset i)

/-- WVAL[i], R58. -/
def wval (s : State) (i : Nat) : Half := half (byteAt s (wvalOffset i + 1)) (byteAt s (wvalOffset i))

/-- TXBUF[i..i+n), R15. -/
def txBytes (s : State) (i n : Nat) : List Byte := (List.range n).map (fun j => txByte s (i + j))

/-- RXBUF[i..i+n), R15. -/
def rxBytes (s : State) (i n : Nat) : List Byte := (List.range n).map (fun j => rxByte s (i + j))

/-- Replace the buffers' contents. -/
def withMem (m : Memory) (s : State) : State := { s with mem := m }

/-- The completion of R135: every command ends with one. -/
def complete (c : ResultCode) (s : State) : State :=
  { s with code := c, phase := .idle, busy := false, done := true, op := none }

/-- `complete(OK)` and `raise Code()` (R16): the running command ends, and no other state changes. -/
def finish (c : ResultCode) (s : State) : Host.Outcome State Fault Refusal := .next (complete c s)

/-- A host write of `w` to CMD while BUSY = 0 is accepted, R74. -/
def accept (w : Word) (s : State) : State :=
  { s with cmd := w, busy := true, done := false, phase := .exec, op := some (fieldOp w) }

/-- The receiver stops (CLOSE, start of phase TX, reset): a character it was receiving is lost, though it is still
on the line (R113, log 9). -/
def cutReception (s : State) : State :=
  { s with lineChar := s.lineChar.map (fun c => { c with heard := false }) }

/-- Reset (R147, R148): every register, hidden item and output at its reset value, the buffers unspecified again
(a new epoch, R60), a command in progress abandoned, a character being sent cut (R149). The pins the outside
drives, what is on the line and what is still to come are not the block's (log 11). -/
def resetBlock (s : State) : State :=
  { State.reset with
    lineChar := (cutReception s).lineChar
    rstN := s.rstN
    phyOk := s.phyOk
    draws := s.draws
    epoch := s.epoch + 1
    inputs := s.inputs
    later := s.later }

end Sys2Proof.Machine
end

