-- ==== Sys2Proof/Machine/Uart.lean ====
section
/-! DEFINITION. The line: silence (R110), the receiver (R113 to R116), the transmitter's characters (R112), and the
passing of time. -/

namespace Sys2Proof.Machine

/-- The receiver is enabled exactly when `re_n` = 0, R113. -/
def rxEnabled (s : State) : Bool := !reN s

/-- No character is in progress on the line, in either direction, R110. -/
def lineQuiet (s : State) : Bool := s.lineChar.isNone && s.txShift.isNone

/-- SILENCE in ticks, R38. -/
def silenceTicks (s : State) : Nat := s.silence.toNat * Config.ticksPerBit

/-- TIMEOUT in ticks, R37. -/
def timeoutTicks (s : State) : Nat := s.timeout.toNat * Config.ticksPerMs

/-- The silence condition, R110. -/
def silent (s : State) : Bool := lineQuiet s && decide (silenceTicks s ≤ s.idle)

/-- The response timeout has passed, R117. -/
def timedOut (s : State) : Bool := decide (timeoutTicks s ≤ s.resp)

/-- The indication `ok` of R113: the parity bit matches the data bits and the stop bit is 1. -/
def charOk (c : LineChar) : Bool := (c.parity == evenParity c.data) && c.stop

/-- RXBUF has room for one more byte, R114. -/
def rxFits (s : State) : Bool := decide (s.rxlen.toNat < Config.bufBytes)

/-- A character received in RX_WAIT or RX_ACTIVE is stored, or dropped where RXBUF is full, R114, R115. -/
def storeChar (d : Byte) (ok : Bool) (s : State) : State :=
  { s with
    mem := if rxFits s then s.mem.set (rxOffset s.rxlen.toNat) d else s.mem
    rxlen := if rxFits s then BitVec.ofNat 9 (s.rxlen.toNat + 1) else s.rxlen
    ovf := s.ovf || !rxFits s
    rxerr := s.rxerr || !ok
    idle := 0
    phase := .rxActive }

/-- A character received in any other phase is discarded, R116. -/
def discardChar (s : State) : State := { s with late := true, idle := 0 }

/-- The engine gets a received character, R114, R116. -/
def receiveChar (d : Byte) (ok : Bool) (s : State) : State :=
  match s.phase with
  | .rxWait | .rxActive => storeChar d ok s
  | .idle | .exec | .waitIdle | .tx => discardChar s

/-- Another device's character begins (R19). The receiver hears it if it is enabled now and stays so (R113). While a
character is on the line no other can begin (log 8). -/
def startChar (d : Byte) (parity stop : Bool) (s : State) : State :=
  match s.lineChar with
  | some _ => s
  | none =>
    { s with
      lineChar :=
        some { data := d, parity := parity, stop := stop, elapsed := 0, heard := s.rstN && rxEnabled s } }

/-- `t` ticks pass on `rxd`; a character whose last bit ends is received if the receiver was enabled from its
start bit to its end (R113), and is otherwise lost. -/
def advanceRx (t : Nat) (s : State) : State :=
  match s.lineChar with
  | none => s
  | some c =>
    if c.elapsed + t < Config.ticksPerChar then
      { s with lineChar := some { c with elapsed := c.elapsed + t } }
    else if c.heard && rxEnabled s then receiveChar c.data (charOk c) { s with lineChar := none }
    else { s with lineChar := none }

/-- Begin the character TXBUF[k] on `txd`, R112. -/
def loadChar (s : State) : State :=
  { s with
    txShift :=
      some { bits := characterBits (txByte s s.k) (evenParity (txByte s s.k)) true, elapsed := 0 }
    k := s.k + 1 }

/-- The end of phase TX (R112): SEND completes (R122), XCHG goes to RX_WAIT with `resp` at 0 (R117, R121). The
command is the hidden `op` (log 16). -/
def endTx (s : State) : State :=
  if s.op = some 0x33 then complete .ok { s with txShift := none }
  else { s with txShift := none, phase := .rxWait, resp := 0 }

/-- A transmitted character's stop bit ends: the next one follows with no idle bit between, or the phase ends
(R112). `idle` restarts (R110). -/
def endChar (s : State) : State :=
  if s.k < s.txlen.toNat then loadChar { s with idle := 0 } else endTx { s with idle := 0 }

/-- `t` ticks pass on `txd`. -/
def advanceTx (t : Nat) (s : State) : State :=
  match s.txShift with
  | none => s
  | some x =>
    if x.elapsed + t < Config.ticksPerChar then
      { s with txShift := some { x with elapsed := x.elapsed + t } }
    else endChar s

/-- `t` ticks pass on the timers (R47): `idle` does not count while the port is closed. -/
def advanceTimers (t : Nat) (s : State) : State :=
  { s with idle := if s.opened then s.idle + t else s.idle, resp := s.resp + t }

/-- `t` ticks pass, no more than up to the next event. A character that ends at that instant is stored before
anything else is decided (R140). -/
def advance (t : Nat) (s : State) : State := advanceTx t (advanceRx t (advanceTimers t s))

/-- The earlier of two times. -/
def earlier : Option Nat → Option Nat → Option Nat
  | some a, some b => some (min a b)
  | some a, none => some a
  | none, b => b

/-- Ticks to the end of the character on `rxd`. -/
def rxDue (s : State) : Option Nat := s.lineChar.map (fun c => Config.ticksPerChar - c.elapsed)

/-- Ticks to the end of the character on `txd`. -/
def txDue (s : State) : Option Nat := s.txShift.map (fun x => Config.ticksPerChar - x.elapsed)

/-- Ticks to the silence condition, where a phase waits for it (R111, R118). -/
def silenceDue (s : State) : Option Nat :=
  match s.phase with
  | .waitIdle | .rxActive => if lineQuiet s then some (silenceTicks s - s.idle) else none
  | .idle | .exec | .tx | .rxWait => none

/-- Ticks to the response timeout, where a phase waits for it (R117, R118). -/
def timeoutDue (s : State) : Option Nat :=
  match s.phase with
  | .rxWait | .rxActive => some (timeoutTicks s - s.resp)
  | .idle | .exec | .waitIdle | .tx => none

/-- Ticks to the next moment at which something happens by itself. -/
def nextEvent (s : State) : Option Nat :=
  earlier (rxDue s) (earlier (txDue s) (earlier (silenceDue s) (timeoutDue s)))

end Sys2Proof.Machine
end

