-- ==== Sys2Proof/Machine/Transport.lean ====
section
/-! DEFINITION. The transport family: OPEN (R119), CLOSE (R120), the start of XCHG (R121) and SEND (R122), and the
timed transitions of their phases (R111, R117, R118). -/

namespace Sys2Proof.Machine

/-- OPEN, R119. -/
def execOpenPort (s : State) : Host.Outcome State Fault Refusal :=
  if s.opened then finish .ok s
  else if !s.phyOk then finish .connectFailed s
  else finish .ok { s with opened := true, idle := 0 }

/-- CLOSE, R120: the receiver is disabled, and a character being received is lost (R113). -/
def execClosePort (s : State) : Host.Outcome State Fault Refusal :=
  finish .ok (cutReception { s with opened := false })

/-- `n < 1 or n > 256` for n = TXLEN, R121, R122. -/
def txlenInvalid (s : State) : Bool :=
  decide (s.txlen.toNat < 1) || decide (s.txlen.toNat > Config.bufBytes)

/-- The exchange starts: RXLEN, RESULT and RPLEN cleared, then WAIT_IDLE (R121, R122). -/
def startExchange (s : State) : State :=
  { s with rxlen := 0, result := .clear, rplen := 0, phase := .waitIdle }

/-- XCHG up to its wait for silence (R121); the phases after it are `transitionNow` and `advance`. -/
def execXchg (s : State) : Host.Outcome State Fault Refusal :=
  if !s.opened then finish .notOpen s
  else if txlenInvalid s then finish .lengthError s
  else .next (startExchange { s with ovf := false })

/-- SEND up to its wait for silence (R122). -/
def execSend (s : State) : Host.Outcome State Fault Refusal :=
  if !s.opened then finish .notOpen s
  else if txlenInvalid s then finish .lengthError s
  else .next (startExchange s)

/-- Phase TX begins with TXBUF[0] (R111, R112); the receiver is disabled (R50). -/
def beginTx (s : State) : State := loadChar (cutReception { s with phase := .tx, k := 0 })

/-- How phase RX_ACTIVE ends, R118. -/
def receptionCode (s : State) : ResultCode :=
  if s.ovf then .rxOverflow
  else if s.rxlen.toNat < Config.minFrame then .partialFrame
  else .ok

/-- The transition the engine makes now because what its phase waits for is true (R111, R117, R118). -/
def transitionNow (s : State) : Option State :=
  match s.phase with
  | .waitIdle => if silent s then some (beginTx s) else none
  | .rxWait => if timedOut s then some (complete .timeout s) else none
  | .rxActive => if silent s || timedOut s then some (complete (receptionCode s) s) else none
  | .idle | .exec | .tx => none

end Sys2Proof.Machine
end

