-- ==== Sys2Proof/Machine/Bus.lean ====
section
/-! DEFINITION. The host's register port: reads (R46, R52 to R56) and writes (R33, R34, R38, R45, R53 to R56). -/

namespace Sys2Proof.Machine

/-- The word a register or buffer entry reads as (R23 to R43, R58). -/
def readReg (r : HostReg) (s : State) : Word :=
  match r with
  | .ctrl => (BitVec.ofBool s.ie).setWidth 32
  | .status => statusWord s
  | .cmd => s.cmd
  | .arg => s.arg
  | .crc => s.crc.setWidth 32
  | .timeout => s.timeout.setWidth 32
  | .silence => s.silence.setWidth 32
  | .req => (s.rfunc ++ s.raddr).setWidth 32
  | .txlen => s.txlen.setWidth 32
  | .rxlen => s.rxlen.setWidth 32
  | .result => resultWord s.result
  | .rplen => s.rplen.setWidth 32
  | .wval i => (wval s i).setWidth 32
  | .txbuf i => (txByte s i).setWidth 32
  | .rxbuf i => (rxByte s i).setWidth 32
  | .reserved => 0

/-- The registers whose value is unspecified while BUSY = 1, R46. -/
def unspecifiedWhileBusy : HostReg → Bool
  | .crc | .req | .rxlen | .result | .rplen | .rxbuf _ => true
  | .ctrl | .status | .cmd | .arg | .timeout | .silence | .txlen | .wval _ | .txbuf _ | .reserved => false

/-- A host read puts the register's word on `prdata`, or a fresh free value where R46 leaves it unspecified. -/
def hostRead (paddr : BitVec 12) (s : State) : State :=
  if s.busy && unspecifiedWhileBusy (hostRegAt paddr) then
    { s with prdata := Config.freeWord s.draws, draws := s.draws + 1 }
  else { s with prdata := readReg (hostRegAt paddr) s }

/-- A write to an operand register: `t` when BUSY = 0, else ignored with WBUSY set, R45. -/
def unlessBusy (s t : State) : State := if s.busy then { s with wbusy := true } else t

/-- WARL of SILENCE: a write of 0 stores 1, R38. -/
def legalSilence (v : Half) : Half := if v = 0 then 1 else v

/-- WVAL[i] written: bits 7:0 and 15:8 (log 14). -/
def setWval (i : Nat) (v : Half) (m : Memory) : Memory :=
  (m.set (wvalOffset i) (lo8 v)).set (wvalOffset i + 1) (hi8 v)

/-- A host write of the word `v`, R53. -/
def hostWrite (paddr : BitVec 12) (v : Word) (s : State) : State :=
  match hostRegAt paddr with
  | .ctrl => { s with ie := v.getLsbD 0 }
  | .status => clearStatus v s
  | .cmd => unlessBusy s (accept v s)
  | .arg => unlessBusy s { s with arg := v }
  | .crc => unlessBusy s { s with crc := v.extractLsb' 0 16 }
  | .timeout => unlessBusy s { s with timeout := v.extractLsb' 0 16 }
  | .silence => unlessBusy s { s with silence := legalSilence (v.extractLsb' 0 16) }
  | .req => unlessBusy s { s with raddr := v.extractLsb' 0 8, rfunc := v.extractLsb' 8 8 }
  | .txlen => unlessBusy s { s with txlen := v.extractLsb' 0 9 }
  | .wval i => unlessBusy s (withMem (setWval i (v.extractLsb' 0 16) s.mem) s)
  | .txbuf i => unlessBusy s (withMem (s.mem.set (txOffset i) (v.extractLsb' 0 8)) s)
  | .rxlen | .result | .rplen | .rxbuf _ | .reserved => s

end Sys2Proof.Machine
end

