-- ==== Sys2Proof/Machine/Crc.lean ====
section
/-! DEFINITION. The CRC-16 function (R90, R91) and the CRC family (R94 to R97). -/

namespace Sys2Proof.Machine

/-- One of the eight iterations of R90: a logical right shift, and the exclusive or with 0xA001 when the bit
shifted out is 1. -/
def crcShift (c : Half) : Half := if c.getLsbD 0 then (c >>> 1) ^^^ 0xA001 else c >>> 1

/-- `n` iterations. -/
def crcShifts : Nat → Half → Half
  | 0, c => c
  | n + 1, c => crcShifts n (crcShift c)

/-- `step(c, b)`, R90. -/
def crcStep (c : Half) (b : Byte) : Half := crcShifts 8 (c ^^^ b.setWidth 16)

/-- `crc16(s)`, R91: `step` folded over the bytes from 0xFFFF. -/
def crc16 (bytes : List Byte) : Half := bytes.foldl crcStep 0xFFFF

/-- CRC.INIT, R94. -/
def execCrcInit (s : State) : Host.Outcome State Fault Refusal := finish .ok { s with crc := 0xFFFF }

/-- CRC.BYTE, R95. -/
def execCrcByte (b : Byte) (s : State) : Host.Outcome State Fault Refusal :=
  finish .ok { s with crc := crcStep s.crc b }

/-- CRC.TX, R96. -/
def execCrcTx (s : State) : Host.Outcome State Fault Refusal :=
  if (argA s).toNat + (argB s).toNat > Config.bufBytes then finish .lengthError s
  else finish .ok { s with crc := crc16 (txBytes s (argA s).toNat (argB s).toNat) }

/-- CRC.RX, R97. -/
def execCrcRx (s : State) : Host.Outcome State Fault Refusal :=
  if (argA s).toNat + (argB s).toNat > Config.bufBytes then finish .lengthError s
  else finish .ok { s with crc := crc16 (rxBytes s (argA s).toNat (argB s).toNat) }

end Sys2Proof.Machine
end

