-- ==== Sys2Proof/Machine/Codec.lean ====
section
/-! DEFINITION. The frame codec: `emit` (R100), ENC.RAW (R101), the decode function (R103) and DEC (R106). -/

namespace Sys2Proof.Machine

/-- R98: an encoder refuses the addresses 248 to 255. -/
def addressInvalid (a : Byte) : Bool := decide (a.toNat > Config.addressMax)

/-- TXBUF as `emit(a, f, p)` leaves it (R100): address and function written first, then the CRC over
TXBUF[0..2+p), low byte first. -/
def emitMem (a f : Byte) (p : Nat) (s : State) : Memory :=
  let headed := Memory.setTx s.mem 0 [a, f]
  let crc := crc16 (txBytes (withMem headed s) 0 (2 + p))
  Memory.setTx headed (2 + p) [lo8 crc, hi8 crc]

/-- `emit(a, f, p)`, R100: the end of an encoder command once TXBUF[2..2+p) holds the payload. -/
def emit (a f : Byte) (p : Nat) (s : State) : Host.Outcome State Fault Refusal :=
  finish .ok
    { s with mem := emitMem a f p s, txlen := BitVec.ofNat 9 (p + 4), raddr := a, rfunc := f }

/-- The register count field {TXBUF[4], TXBUF[5]} of a 0x10 payload, R101. -/
def rawCount (s : State) : Nat := (half (txByte s 4) (txByte s 5)).toNat

/-- R99: the payload length `p` breaks a limit of function `f`. -/
def rawLengthError (f : Byte) (p : Nat) (s : State) : Bool :=
  decide (p > Config.rawPayloadMax) ||
  (f == 0x03 && p != 4) ||
  (f == 0x10 && (decide (rawCount s < 1) || decide (rawCount s > Config.wvalWords) || p != 5 + 2 * rawCount s)) ||
  (f == 0x28 && p != 9)

/-- ENC.RAW, R101. -/
def execEncRaw (a f : Byte) (s : State) : Host.Outcome State Fault Refusal :=
  if addressInvalid a then finish .invalidAddress s
  else if rawLengthError f (argB s).toNat s then finish .lengthError s
  else emit a f (argB s).toNat s

/-- What decoding a byte sequence gives, R103. -/
inductive Decoded where
  | frameTooShort
  | crcMismatch
  | exception (a f e : Byte) (payloadLength : Nat)
  | data (a f : Byte) (payloadLength : Nat)
deriving DecidableEq, Repr

/-- `s[i]` of a byte sequence, for an index in range (R15). -/
def byteOf (bytes : List Byte) (i : Nat) : Byte := bytes.getD i 0

/-- `decode(s)`, R103. -/
def decodeFrame (bytes : List Byte) : Decoded :=
  let n := bytes.length
  if n < Config.minFrame then .frameTooShort
  else if crc16 (bytes.take (n - 2)) ≠ half (byteOf bytes (n - 1)) (byteOf bytes (n - 2)) then .crcMismatch
  else if (byteOf bytes 1).getLsbD 7 then
    .exception (byteOf bytes 0) (byteOf bytes 1) (byteOf bytes 2) (n - 4)
  else .data (byteOf bytes 0) (byteOf bytes 1) (n - 4)

/-- Write RESULT and RPLEN. -/
def setResult (r : DecodedHeader) (len : Nat) (s : State) : State :=
  { s with result := r, rplen := BitVec.ofNat 9 len }

/-- DEC up to its completion (R106): RESULT and RPLEN written from RXBUF[0..RXLEN), and the code it raises, OK
for none. -/
def decodeReceived (s : State) : State × ResultCode :=
  match decodeFrame (rxBytes s 0 s.rxlen.toNat) with
  | .frameTooShort => (setResult .clear 0 s, .frameTooShort)
  | .crcMismatch => (setResult .clear 0 s, .crcMismatch)
  | .exception a f e pl => (setResult { kind := .exception, excode := e, func := f, addr := a } pl s, .ok)
  | .data a f pl => (setResult { kind := .data, excode := 0, func := f, addr := a } pl s, .ok)

/-- DEC, R106. -/
def execDec (s : State) : Host.Outcome State Fault Refusal :=
  finish (decodeReceived s).2 (decodeReceived s).1

end Sys2Proof.Machine
end

