-- ==== Sys2Proof/Machine/Session.lean ====
section
/-! DEFINITION. The session family: the request templates ENC.RHR (R126), ENC.WMR (R127), ENC.UNL (R128), and the
response check CHK (R129). -/

namespace Sys2Proof.Machine

/-- A 16-bit field of a payload, big-endian, R62. -/
def bigEndian (v : Half) : List Byte := [hi8 v, lo8 v]

/-- An encoder command with a payload template: the payload goes to TXBUF[2..), then `emit` (R100). -/
def encodePayload (a f : Byte) (payload : List Byte) (s : State) : Host.Outcome State Fault Refusal :=
  emit a f payload.length (withMem (Memory.setTx s.mem 2 payload) s)

/-- The payload of a 0x03 request, R83, R126. -/
def rhrPayload (s : State) : List Byte := bigEndian (argA s) ++ bigEndian (argB s)

/-- ENC.RHR, R126. -/
def execEncRhr (a : Byte) (s : State) : Host.Outcome State Fault Refusal :=
  if addressInvalid a then finish .invalidAddress s
  else encodePayload a 0x03 (rhrPayload s) s

/-- WVAL[0..c) as big-endian bytes, R127. -/
def wvalBytes (s : State) (c : Nat) : List Byte := (List.range c).flatMap (fun j => bigEndian (wval s j))

/-- The payload of a 0x10 request, R85, R127: start register, count, byte count, values. -/
def wmrPayload (s : State) : List Byte :=
  bigEndian (argA s) ++ bigEndian (argB s) ++ [BitVec.ofNat 8 (2 * (argB s).toNat)] ++
    wvalBytes s (argB s).toNat

/-- ENC.WMR, R127. -/
def execEncWmr (a : Byte) (s : State) : Host.Outcome State Fault Refusal :=
  if addressInvalid a then finish .invalidAddress s
  else if (argB s).toNat < 1 ∨ (argB s).toNat > Config.wvalWords then finish .lengthError s
  else encodePayload a 0x10 (wmrPayload s) s

/-- The fixed payload of the vendor unlock, R87, R128. -/
def unlockPayload : List Byte := [0xFE, 0x01, 0x00, 0x02, 0x04, 0x00, 0x00, 0x00, 0x00]

/-- ENC.UNL, R128. -/
def execEncUnl (a : Byte) (s : State) : Host.Outcome State Fault Refusal :=
  if addressInvalid a then finish .invalidAddress s
  else encodePayload a 0x28 unlockPayload s

/-- The header tests of CHK on the state DEC's part left, in R129's order. -/
def headerCode (s : State) : ResultCode :=
  if s.result.addr ≠ s.raddr then .unexpectedAddress
  else if s.result.kind = .exception then .deviceException
  else if s.result.func ≠ s.rfunc then .unexpectedFunction
  else .ok

/-- CHK, R129: DEC's part first; what it raises ends the command before the header tests. -/
def execChk (s : State) : Host.Outcome State Fault Refusal :=
  match decodeReceived s with
  | (t, .ok) => finish (headerCode t) t
  | (t, c) => finish c t

end Sys2Proof.Machine
end

