-- ==== Sys2Proof/Machine/Dispatch.lean ====
section
/-! DEFINITION. One arm per command (R76). A don't-care field of the command word is not given to the meaning (R78). -/

namespace Sys2Proof.Machine

def exec (i : Instr) (s : State) : Host.Outcome State Fault Refusal :=
  match i with
  | .crcInit _ _ => Sys2Proof.Machine.execCrcInit s
  | .crcByte b _ => Sys2Proof.Machine.execCrcByte b s
  | .crcTx _ _ => Sys2Proof.Machine.execCrcTx s
  | .crcRx _ _ => Sys2Proof.Machine.execCrcRx s
  | .encRaw a f => Sys2Proof.Machine.execEncRaw a f s
  | .encRhr a _ => Sys2Proof.Machine.execEncRhr a s
  | .encWmr a _ => Sys2Proof.Machine.execEncWmr a s
  | .encUnl a _ => Sys2Proof.Machine.execEncUnl a s
  | .dec _ _ => Sys2Proof.Machine.execDec s
  | .chk _ _ => Sys2Proof.Machine.execChk s
  | .openPort _ _ => Sys2Proof.Machine.execOpenPort s
  | .closePort _ _ => Sys2Proof.Machine.execClosePort s
  | .xchg _ _ => Sys2Proof.Machine.execXchg s
  | .send _ _ => Sys2Proof.Machine.execSend s

end Sys2Proof.Machine
end

