-- ==== Sys2Proof/Machine/Agents.lean ====
section
/-! DEFINITION. The moves of the agents (R18): the engine executing the accepted command (R74, R136), time passing,
each input's effect, and what is left of them while the block is in reset (R147). -/

namespace Sys2Proof.Machine

/-- The engine's move (R74): in phase EXEC it runs the rule of the word in CMD, and a word that is no command
completes with IllegalCommand (R77). In any other phase it has nothing to execute. -/
def engineMove (s : State) : Host.Outcome State Fault Refusal :=
  match s.phase with
  | .exec =>
    match decode s.cmd with
    | .ok i => exec i s
    | .error _ => finish .illegalCommand s
  | .idle | .waitIdle | .tx | .rxWait | .rxActive => .next s

/-- What is left of a wait. -/
def remainingWait (t : Nat) (rest : List Input) : List Input := if t = 0 then rest else .wait t :: rest

/-- Up to `t` ticks pass: to the next event if it comes sooner, the rest of the wait still to come. -/
def passTime (t : Nat) (s : State) : State :=
  let d := min t ((nextEvent s).getD t)
  advance d { s with inputs := remainingWait (t - d) s.inputs }

/-- The effect of one input, already taken from the list. -/
def applyInput (i : Input) (s : State) : Host.Outcome State Fault Refusal :=
  match i with
  | .write paddr v => .next (hostWrite paddr v s)
  | .read paddr => .next (hostRead paddr s)
  | .engine => engineMove s
  | .wait t => .next (passTime t s)
  | .charStart d p q => .next (startChar d p q s)
  | .rst level => .next (if level then s else { resetBlock s with rstN := false })
  | .phy level => .next { s with phyOk := level }

/-- The next burst of inputs and the tick after it, where more is to come (log 2). -/
def refill (s : State) : State :=
  match s.later with
  | .quiet => s
  | .again acts => { s with inputs := acts ++ [.wait 1] }
  | .unknown n => { s with inputs := Config.furtherInputs n ++ [.wait 1], later := .unknown (n + 1) }

/-- No input is left and no command executes. With more to come the next burst of it is next, which takes no time;
else the host is idle and the line stays as it is: time passes to the next event, or for one tick where none is due
(log 2). -/
def idleMove (s : State) : State :=
  match s.later with
  | .quiet => passTime ((nextEvent s).getD 1) s
  | .again _ | .unknown _ => refill s

/-- With no input left an accepted command executes (log 4), and in any other phase the surroundings go on. -/
def restMove (s : State) : Host.Outcome State Fault Refusal :=
  match s.phase with
  | .exec => engineMove s
  | .idle | .waitIdle | .tx | .rxWait | .rxActive => .next (idleMove s)

/-- One input while `rst_n` = 0 (R147): reads return 0, writes are ignored, nothing is received or sent; what is on
the line goes on. When `rst_n` returns to 1 every register holds its reset value. -/
def applyInputInReset (i : Input) (s : State) : State :=
  match i with
  | .write _ _ => s
  | .read _ => { s with prdata := 0 }
  | .engine => s
  | .wait t => advanceRx t (cutReception s)
  | .charStart d p q => startChar d p q s
  | .rst level => if level then { resetBlock s with rstN := true } else s
  | .phy level => { s with phyOk := level }

/-- One move of the machine. A timed transition whose condition holds comes before the next input (log 3). -/
def move (s : State) : Host.Outcome State Fault Refusal :=
  if s.rstN then
    match transitionNow s with
    | some t => .next t
    | none =>
      match s.inputs with
      | [] => restMove s
      | i :: rest => applyInput i { s with inputs := rest }
  else
    match s.inputs with
    | [] => .next (refill s)
    | i :: rest => .next (applyInputInReset i { s with inputs := rest })

/-- `s` with the host's write of the command word `w` just accepted (R74) and the engine to move next (log 15). -/
def placeCommand (w : Word) (s : State) : State :=
  { accept w s with rstN := true, inputs := .engine :: s.inputs }

end Sys2Proof.Machine
end

