-- ==== Sys2Proof/Machine/Step.lean ====
section
/-! DEFINITION. One step of the machine, and placing a command where the next step runs it. -/

namespace Sys2Proof.Machine

/-- One step: one move of one agent. -/
def step (s : State) : Host.Outcome State Fault Refusal := move s

/-- `s` with the instruction whose low `nbits` bits are `w` (every higher bit 0) accepted in CMD, so that the very
next step executes it (log 15). -/
def State.withFetchWord (s : State) (nbits w : Nat) : State :=
  placeCommand (BitVec.ofNat 32 (w % 2 ^ nbits)) s

end Sys2Proof.Machine
end

