-- ==== Sys2Proof/Safety.lean ====
section
/-! DEFINITION. The terms claims are stated in: frames (R82), the length limits of R99, whose turn it is, running
several commands or steps, the invariant of the machine, and what a safe state is. -/

namespace Sys2Proof.Safety

open Sys2Proof.Machine

/-- The frame of R82: address, function, payload, CRC low byte, CRC high byte. -/
def frameBytes (a f : Byte) (payload : List Byte) : List Byte :=
  [a, f] ++ payload ++ [lo8 (crc16 ([a, f] ++ payload)), hi8 (crc16 ([a, f] ++ payload))]

/-- R99: a payload of `p` bytes whose count field is `c` is within the limits of function `f`. -/
def PayloadAllowed (f : Byte) (p c : Nat) : Prop :=
  p ≤ 252 ∧ (f = 0x03 → p = 4) ∧ (f = 0x10 → 1 ≤ c ∧ c ≤ 123 ∧ p = 5 + 2 * c) ∧ (f = 0x28 → p = 9)

/-- Out of reset, with no timed transition due, `i` is the next input: a step takes it. -/
def HasTurn (s : State) (i : Input) (rest : List Input) : Prop :=
  s.rstN = true ∧ transitionNow s = none ∧ s.inputs = i :: rest

/-- Run commands one after another, each as `exec` gives it. -/
def runCommands : List Instr → State → Option State
  | [], s => some s
  | i :: is, s =>
    match exec i s with
    | .next t => runCommands is t
    | .fault _ | .refused _ => none

/-- Run a number of steps. -/
def runSteps : Nat → State → Option State
  | 0, s => some s
  | n + 1, s =>
    match step s with
    | .next t => runSteps n t
    | .fault _ | .refused _ => none

/-- The host writes the register at word number `n` = offset / 4, and the next step takes the write. -/
def HostWrites (s : State) (n : Nat) (v : Word) (rest : List Input) : Prop :=
  ∃ paddr : BitVec 12, paddr.toNat / 4 = n ∧ HasTurn s (.write paddr v) rest

/-- The host reads the register at word number `n` = offset / 4, and the next step takes the read. -/
def HostReads (s : State) (n : Nat) (rest : List Input) : Prop :=
  ∃ paddr : BitVec 12, paddr.toNat / 4 = n ∧ HasTurn s (.read paddr) rest

/-- A reply as the line sends it: whole characters with good parity and stop bits, back to back. -/
def replyInputs (reply : List Byte) : List Input :=
  reply.flatMap (fun d => [.charStart d (evenParity d) true, .wait 55])

/-- The phases of XCHG and SEND after their checks, R32. -/
def onLine : Phase → Bool
  | .waitIdle | .tx | .rxWait | .rxActive => true
  | .idle | .exec => false

/-- The phases in which RXBUF is not written yet. -/
def beforeReception : Phase → Bool
  | .waitIdle | .tx | .rxWait => true
  | .idle | .exec | .rxActive => false

/-- The phases in which a response is awaited or received. -/
def receiving : Phase → Bool
  | .rxWait | .rxActive => true
  | .idle | .exec | .waitIdle | .tx => false

/-- An offset that holds a byte of WVAL, TXBUF or RXBUF (R23, R58). -/
def isBufferOffset (a : Nat) : Bool :=
  (decide (0x200 ≤ a) && decide (a < 0x3EC) && decide (a % 4 < 2)) ||
    (decide (0x400 ≤ a) && decide (a < 0xC00) && decide (a % 4 = 0))

/-- The invariant of the machine: what holds in every state a run can reach. -/
structure MachineInv (s : State) : Prop where
  /-- The buffers' memory is in its canonical form. -/
  memCanonical : s.mem.wf = true
  /-- Memory lists buffer bytes only, R51, R58. -/
  memInMap : ∀ c ∈ s.mem, isBufferOffset c.1 = true
  /-- PHASE = 0 exactly when BUSY = 0, R32. -/
  busyIffPhase : s.busy = true ↔ s.phase ≠ .idle
  /-- `op` is CMD's opcode while a command runs, else none, R47, R135. -/
  opOfCmd : s.op = if s.busy then some (fieldOp s.cmd) else none
  /-- DONE is 0 while a command runs, R138. -/
  notDoneWhileBusy : s.busy = true → s.done = false
  /-- SILENCE is never 0, R38. -/
  silenceLegal : s.silence ≠ 0
  /-- RXLEN is 0 to 256, R41. -/
  rxlenLegal : s.rxlen.toNat ≤ 256
  /-- A command on the line is XCHG or SEND on an open port with a legal TXLEN, and RESULT and RPLEN are cleared
  (R121, R122). -/
  lineCommand : onLine s.phase = true →
    s.opened = true ∧ 1 ≤ s.txlen.toNat ∧ s.txlen.toNat ≤ 256 ∧ (s.op = some 0x32 ∨ s.op = some 0x33) ∧
      s.result = .clear ∧ s.rplen = 0
  /-- Nothing is received before RX_WAIT ends, R117. -/
  nothingReceived : beforeReception s.phase = true → s.rxlen = 0 ∧ (s.op = some 0x32 → s.ovf = false)
  /-- Only XCHG receives, R121, R122. -/
  xchgReceives : receiving s.phase = true → s.op = some 0x32
  /-- RX_ACTIVE has received a character, and has dropped one only with RXBUF full, R114. -/
  active : s.phase = .rxActive → 1 ≤ s.rxlen.toNat ∧ (s.ovf = true → s.rxlen.toNat = 256)
  /-- A character is on `txd` exactly in phase TX, R50. -/
  sending : s.phase = .tx ↔ s.txShift.isSome = true
  /-- That character is TXBUF[k-1], R112. -/
  sent : ∀ x, s.txShift = some x → 1 ≤ s.k ∧ s.k ≤ s.txlen.toNat ∧ x.elapsed < 55 ∧
    x.bits = characterBits (txByte s (s.k - 1)) (evenParity (txByte s (s.k - 1))) true
  /-- A character on `rxd` is within its 11 bit times, and is heard only with the receiver enabled, R109, R113. -/
  onRxd : ∀ c, s.lineChar = some c → c.elapsed < 55 ∧ (c.heard = true → rxEnabled s = true)
  /-- RPLEN is RXLEN - 4 after a decoded frame, else 0, and then RESULT is 0, R42, R43. -/
  payloadLength : if s.result.kind = .none then s.result = .clear ∧ s.rplen = 0
    else s.rplen.toNat + 4 = s.rxlen.toNat
  /-- EXCODE is 0 unless KIND = 2, R42. -/
  exceptionCode : s.result.kind ≠ .exception → s.result.excode = 0
  /-- In reset every field of the block holds its reset value, R147. -/
  inReset : s.rstN = false →
    s = { State.reset with
      lineChar := s.lineChar, rstN := false, phyOk := s.phyOk, draws := s.draws, epoch := s.epoch,
      inputs := s.inputs, later := s.later }

/-- A safe state: the block never drives the bus and listens at once (R50), a command that ended has said so
(R135), and the buffers are what their rules allow. -/
def Safe (s : State) : Prop := MachineInv s ∧ ¬(de s = true ∧ reN s = false)

end Sys2Proof.Safety
end

