-- ==== Sys2Proof/Certificates/Slice0/Obligations.lean ====
section
/-! DEFINITION. The statements for the provers. `HasTurn`, `HostWrites`, `HostReads`, `runSteps`, `frameBytes`,
`PayloadAllowed` and `MachineInv` are Sys2Proof/Safety.lean's. A register at offset 4*n is word number n. A tick is
1/48000 s (log 1): a bit time is 5 ticks, a character 55, a millisecond 48. -/

open Sys2Proof Sys2Proof.Machine Sys2Proof.Safety

/-! ## Encoding -/

/-- Decoding and encoding agree on every command with every operand, and on every word that decodes. -/
def Obligations.DecodeEncodeAgree : Prop :=
  (∀ i : Instr, decode (encode i) = .ok i) ∧ (∀ (w : Word) (i : Instr), decode w = .ok i → encode i = w)

/-- R76: the fourteen opcodes select the fourteen commands, with A8 and B8 as their operands, and no other word
selects any. -/
def Obligations.OpcodeMap : Prop :=
  ∀ w : Word,
    let op := (w.extractLsb' 0 8).toNat
    let a := w.extractLsb' 8 8
    let b := w.extractLsb' 16 8
    (w.extractLsb' 24 8 = 0 →
      (op = 0x01 → decode w = .ok (.crcInit a b)) ∧
      (op = 0x02 → decode w = .ok (.crcByte a b)) ∧
      (op = 0x03 → decode w = .ok (.crcTx a b)) ∧
      (op = 0x04 → decode w = .ok (.crcRx a b)) ∧
      (op = 0x10 → decode w = .ok (.encRaw a b)) ∧
      (op = 0x20 → decode w = .ok (.dec a b)) ∧
      (op = 0x30 → decode w = .ok (.openPort a b)) ∧
      (op = 0x31 → decode w = .ok (.closePort a b)) ∧
      (op = 0x32 → decode w = .ok (.xchg a b)) ∧
      (op = 0x33 → decode w = .ok (.send a b)) ∧
      (op = 0x11 → decode w = .ok (.encRhr a b)) ∧
      (op = 0x12 → decode w = .ok (.encWmr a b)) ∧
      (op = 0x13 → decode w = .ok (.encUnl a b)) ∧
      (op = 0x21 → decode w = .ok (.chk a b))) ∧
    (w.extractLsb' 24 8 ≠ 0 ∨
        op ∉ [0x01, 0x02, 0x03, 0x04, 0x10, 0x20, 0x30, 0x31, 0x32, 0x33, 0x11, 0x12, 0x13, 0x21] →
      ∃ e, decode w = .error e)

/-- Words written out from the encoding table of R72 and R76 decode to the commands they stand for. -/
def Obligations.SampleWordsDecode : Prop :=
  decode 0b00000000000000000000000000000001#32 = .ok (.crcInit 0x00 0x00) ∧
  decode 0b00000000000000001010010100000010#32 = .ok (.crcByte 0xA5 0x00) ∧
  decode 0b00000000010000010000000100010000#32 = .ok (.encRaw 0x01 0x41) ∧
  decode 0b00000000000000001111011100010001#32 = .ok (.encRhr 0xF7 0x00) ∧
  decode 0b00000000111111110000000000100001#32 = .ok (.chk 0x00 0xFF) ∧
  decode 0b00000000000000000000000000110010#32 = .ok (.xchg 0x00 0x00)

/-- R78: a field R73 marks "-", in the command word or in ARG, never changes what a command does; a field of ARG that
is not read only keeps its value. -/
def Obligations.DontCareFieldsHaveNoEffect : Prop :=
  ∀ (s : State) (x a b a' b' : Byte),
    exec (.crcInit a b) s = exec (.crcInit a' b') s ∧
    exec (.crcByte x b) s = exec (.crcByte x b') s ∧
    exec (.crcTx a b) s = exec (.crcTx a' b') s ∧
    exec (.crcRx a b) s = exec (.crcRx a' b') s ∧
    exec (.encRhr x b) s = exec (.encRhr x b') s ∧
    exec (.encWmr x b) s = exec (.encWmr x b') s ∧
    exec (.encUnl x b) s = exec (.encUnl x b') s ∧
    exec (.dec a b) s = exec (.dec a' b') s ∧
    exec (.chk a b) s = exec (.chk a' b') s ∧
    exec (.openPort a b) s = exec (.openPort a' b') s ∧
    exec (.closePort a b) s = exec (.closePort a' b') s ∧
    exec (.xchg a b) s = exec (.xchg a' b') s ∧
    exec (.send a b) s = exec (.send a' b') s ∧
    (∀ (v : Word), ∀ i ∈ [Instr.crcInit a b, Instr.crcByte a b, Instr.encUnl a b, Instr.dec a b, Instr.chk a b,
        Instr.openPort a b, Instr.closePort a b, Instr.xchg a b, Instr.send a b],
      ∃ t, exec i s = .next t ∧ exec i { s with arg := v } = .next { t with arg := v }) ∧
    (∀ v : Half, ∃ t, exec (.encRaw a b) s = .next t ∧
      exec (.encRaw a b) { s with arg := s.arg.extractLsb' 16 16 ++ v } =
        .next { t with arg := s.arg.extractLsb' 16 16 ++ v })

/-! ## Steps and acceptance -/

/-- In phase EXEC the step that is the engine's runs exactly the decoded command (R74, R136); so does the step with no
input left, and the step after a command word is placed. That the engine moves where no input is left is the model's
choice (log 2), and so is what withFetchWord places (log 15). -/
def Obligations.StepRunsDecodedCommand : Prop :=
  (∀ (s : State) (i : Instr) (rest : List Input), s.phase = .exec → HasTurn s .engine rest →
      decode s.cmd = .ok i → step s = exec i { s with inputs := rest }) ∧
  (∀ (s : State) (i : Instr), s.rstN = true → s.phase = .exec → s.inputs = [] → decode s.cmd = .ok i →
      step s = exec i s) ∧
  (∀ (s : State) (w : Word) (i : Instr), decode w = .ok i →
      step (s.withFetchWord 32 w.toNat) =
        exec i { s with
          cmd := w, busy := true, done := false, phase := .exec, op := some (w.extractLsb' 0 8), rstN := true })

/-- No state stops the machine: every step answers a next state. -/
def Obligations.EveryStepAnswers : Prop := ∀ s : State, ∃ t, step s = .next t

/-- R74: a CMD write while BUSY = 0 is accepted, the engine then runs the word's rule or completes with
IllegalCommand, and a CMD write while BUSY = 1 changes nothing but WBUSY. -/
def Obligations.CommandAcceptance : Prop :=
  (∀ (s : State) (w : Word) (rest : List Input), HostWrites s 2 w rest →
      (s.busy = false → step s = .next { s with
        cmd := w, busy := true, done := false, phase := .exec, op := some (w.extractLsb' 0 8), inputs := rest }) ∧
      (s.busy = true → step s = .next { s with wbusy := true, inputs := rest })) ∧
  (∀ (s : State) (rest : List Input), s.phase = .exec → HasTurn s .engine rest →
      (∀ i, decode s.cmd = .ok i → step s = exec i { s with inputs := rest }) ∧
      (∀ e, decode s.cmd = .error e → step s = .next { s with
        code := .illegalCommand, phase := .idle, busy := false, done := true, op := none, inputs := rest }))

/-- R77: a word with CMD[31:24] ≠ 0 or an unassigned OP is accepted like any command, then completes with
IllegalCommand and changes no other state; 0 is such a word. -/
def Obligations.IllegalWordCompletes : Prop :=
  ∀ (s : State) (w : Word) (rest : List Input),
    s.busy = false → s.phase = .idle → s.op = none → HostWrites s 2 w (.engine :: rest) →
    (w.extractLsb' 24 8 ≠ 0 ∨
      (let op := (w.extractLsb' 0 8).toNat
       op = 0 ∨ (0x05 ≤ op ∧ op ≤ 0x0F) ∨ (0x14 ≤ op ∧ op ≤ 0x1F) ∨ (0x22 ≤ op ∧ op ≤ 0x2F) ∨
         (0x34 ≤ op ∧ op ≤ 0xFF))) →
    (∃ t, step s = .next t ∧ t.busy = true ∧ t.done = false ∧ t.cmd = w) ∧
    runSteps 2 s = some { s with cmd := w, code := .illegalCommand, done := true, inputs := rest }

/-- R75: the only step that makes BUSY rise takes a host write to CMD while no command runs, and a step between two
states with BUSY = 1 leaves the command in progress what it is. -/
def Obligations.CommandStartsOnlyByAcceptance : Prop :=
  ∀ s t : State, step s = .next t → t.busy = true →
    (s.busy = false → ∃ w rest, HostWrites s 2 w rest ∧ t = { s with
      cmd := w, busy := true, done := false, phase := .exec, op := some (w.extractLsb' 0 8), inputs := rest }) ∧
    (s.busy = true → t.op = s.op ∧ t.cmd = s.cmd)

/-! ## CRC -/

/-- R90: the byte step is the exclusive or into the low byte, then eight times a logical right shift, with 0xA001
where the bit shifted out is 1. -/
def Obligations.CrcByteStep : Prop :=
  ∀ (c : Half) (b : Byte),
    crcStep c b =
      (List.range 8).foldl
        (fun (x : Half) _ => if x.getLsbD 0 = true then (x >>> 1) ^^^ 0xA001#16 else x >>> 1)
        (c ^^^ b.setWidth 16)

/-- The properties of 40_crc.md section 1 of the whole function: the residue, the detection of any change of one
byte, and the check value. -/
def Obligations.CrcDetectsChanges : Prop :=
  (∀ bs : List Byte, crc16 (bs ++ [lo8 (crc16 bs), hi8 (crc16 bs)]) = 0) ∧
  (∀ (bs : List Byte) (j : Nat) (v : Byte), j < bs.length → bs[j]? ≠ some v → crc16 (bs.set j v) ≠ crc16 bs) ∧
  crc16 [0x31, 0x32, 0x33, 0x34, 0x35, 0x36, 0x37, 0x38, 0x39] = 0x4B37

/-- R94: CRC.INIT sets the accumulator to 0xFFFF, completes with OK, and changes nothing else. -/
def Obligations.CrcInitResult : Prop :=
  ∀ (a b : Byte) (s : State),
    exec (.crcInit a b) s = .next { s with
      crc := 0xFFFF, code := .ok, phase := .idle, busy := false, done := true, op := none }

/-- R95: CRC.BYTE steps the accumulator by its byte, completes with OK, and changes nothing else; CRC.INIT and then
CRC.BYTE for each byte of a sequence leave its CRC. -/
def Obligations.CrcByteResult : Prop :=
  (∀ (b x : Byte) (s : State),
    exec (.crcByte b x) s = .next { s with
      crc := crcStep s.crc b, code := .ok, phase := .idle, busy := false, done := true, op := none }) ∧
  crcStep 0xFFFF 0x00 = 0x40BF ∧ crcStep 0xFFFF 0xFF = 0x00FF ∧ crcStep 0xFFFF 0x01 = 0x807E ∧
  (∀ (bs : List Byte) (s : State),
    ∃ t, runCommands (.crcInit 0 0 :: bs.map (fun b => .crcByte b 0)) s = some t ∧ t.crc = crc16 bs)

/-- R96: CRC.TX leaves the CRC of TXBUF[s..s+n), from 0xFFFF, or raises LengthError beyond TXBUF; nothing else
changes. -/
def Obligations.CrcTxResult : Prop :=
  (∀ (a b : Byte) (s : State),
    let i := (s.arg.extractLsb' 0 16).toNat
    let n := (s.arg.extractLsb' 16 16).toNat
    (i + n > 256 → exec (.crcTx a b) s = .next { s with
      code := .lengthError, phase := .idle, busy := false, done := true, op := none }) ∧
    (i + n ≤ 256 → exec (.crcTx a b) s = .next { s with
      crc := crc16 (txBytes s i n), code := .ok, phase := .idle, busy := false, done := true, op := none })) ∧
  crc16 [] = 0xFFFF ∧ crc16 [0x01, 0x03, 0x01, 0x10, 0x00, 0x01] = 0x3384

/-- R97: CRC.RX leaves the CRC of RXBUF[s..s+n), from 0xFFFF, or raises LengthError beyond RXBUF; nothing else
changes; over a whole valid frame the result is 0. -/
def Obligations.CrcRxResult : Prop :=
  (∀ (a b : Byte) (s : State),
    let i := (s.arg.extractLsb' 0 16).toNat
    let n := (s.arg.extractLsb' 16 16).toNat
    (i + n > 256 → exec (.crcRx a b) s = .next { s with
      code := .lengthError, phase := .idle, busy := false, done := true, op := none }) ∧
    (i + n ≤ 256 → exec (.crcRx a b) s = .next { s with
      crc := crc16 (rxBytes s i n), code := .ok, phase := .idle, busy := false, done := true, op := none })) ∧
  (∀ (a f : Byte) (payload : List Byte), crc16 (frameBytes a f payload) = 0) ∧
  crc16 [0x01, 0x03, 0x02, 0x00, 0x01, 0x79, 0x84] = 0x0000 ∧ crc16 [0x01, 0x03, 0x02, 0x00, 0x01] = 0x8479

/-! ## Encoders -/

/-- R98: every encoder refuses the addresses 248 to 255 first and writes nothing else, and no other address,
0 (broadcast) among them, is refused. -/
def Obligations.EncoderAddressCheck : Prop :=
  ∀ (a b : Byte) (s : State),
    ∀ i ∈ [Instr.encRaw a b, Instr.encRhr a b, Instr.encWmr a b, Instr.encUnl a b],
      (a.toNat > 247 → exec i s = .next { s with
        code := .invalidAddress, phase := .idle, busy := false, done := true, op := none }) ∧
      (a.toNat ≤ 247 → ∃ t, exec i s = .next t ∧ t.code ≠ .invalidAddress)

/-- R99: with a valid address, ENC.RAW raises LengthError exactly on a payload outside the limits of its function and
ENC.WMR exactly on a count outside 1 to 123, writing nothing else; no other property of a payload is checked. -/
def Obligations.EncoderLengthLimits : Prop :=
  ∀ (a f : Byte) (s : State), a.toNat ≤ 247 →
    let p := (s.arg.extractLsb' 16 16).toNat
    let refused : Host.Outcome State Fault Refusal := .next { s with
      code := .lengthError, phase := .idle, busy := false, done := true, op := none }
    (¬PayloadAllowed f p (txByte s 4 ++ txByte s 5).toNat → exec (.encRaw a f) s = refused) ∧
    (PayloadAllowed f p (txByte s 4 ++ txByte s 5).toNat →
      ∃ t, exec (.encRaw a f) s = .next t ∧ t.code = .ok ∧ t.txlen.toNat = p + 4) ∧
    (p < 1 ∨ p > 123 → exec (.encWmr a f) s = refused) ∧
    (1 ≤ p ∧ p ≤ 123 → ∃ t, exec (.encWmr a f) s = .next t ∧ t.code = .ok ∧ t.txlen.toNat = 9 + 2 * p) ∧
    (∃ t, exec (.encRhr a f) s = .next t ∧ t.code = .ok) ∧ (∃ t, exec (.encUnl a f) s = .next t ∧ t.code = .ok)

/-- ENC.RAW (41_codec.md sections 1 and 2) builds the frame around the payload in TXBUF[2..2+p): TXLEN and REQ are
written, no byte outside TXBUF[0], TXBUF[1], TXBUF[2+p], TXBUF[3+p] changes, and no other state does. -/
def Obligations.EncRawBuildsFrame : Prop :=
  ∀ (a f : Byte) (s : State),
    let p := (s.arg.extractLsb' 16 16).toNat
    a.toNat ≤ 247 → PayloadAllowed f p (txByte s 4 ++ txByte s 5).toNat →
    ∃ t, exec (.encRaw a f) s = .next t ∧
      txBytes t 0 (p + 4) = frameBytes a f (txBytes s 2 p) ∧ t.txlen.toNat = p + 4 ∧
      (∀ addr, addr ≠ txOffset 0 → addr ≠ txOffset 1 → addr ≠ txOffset (2 + p) → addr ≠ txOffset (3 + p) →
        byteAt t addr = byteAt s addr) ∧
      t = { s with
        mem := t.mem, txlen := t.txlen, raddr := a, rfunc := f,
        code := .ok, phase := .idle, busy := false, done := true, op := none }

/-- R126: ENC.RHR builds the 0x03 request of start register ARG[15:0] and count ARG[31:16], both big-endian; no byte
outside TXBUF[0..8) changes, and no state but TXLEN and REQ does. -/
def Obligations.EncRhrBuildsFrame : Prop :=
  ∀ (a b : Byte) (s : State), a.toNat ≤ 247 →
    ∃ t, exec (.encRhr a b) s = .next t ∧
      txBytes t 0 8 =
        frameBytes a 0x03
          [s.arg.extractLsb' 8 8, s.arg.extractLsb' 0 8, s.arg.extractLsb' 24 8, s.arg.extractLsb' 16 8] ∧
      (∀ addr, (∀ j, j < 8 → addr ≠ txOffset j) → byteAt t addr = byteAt s addr) ∧
      t = { s with
        mem := t.mem, txlen := 8, raddr := a, rfunc := 0x03,
        code := .ok, phase := .idle, busy := false, done := true, op := none }

/-- R127: ENC.WMR with a count c of 1 to 123 builds the 0x10 request: start register, count, byte count 2*c, and
WVAL[0..c) big-endian; no byte outside TXBUF[0..9+2c) changes, and no state but TXLEN and REQ does. -/
def Obligations.EncWmrBuildsFrame : Prop :=
  ∀ (a b : Byte) (s : State),
    let c := (s.arg.extractLsb' 16 16).toNat
    a.toNat ≤ 247 → 1 ≤ c → c ≤ 123 →
    ∃ t, exec (.encWmr a b) s = .next t ∧
      txBytes t 0 (9 + 2 * c) =
        frameBytes a 0x10
          ([s.arg.extractLsb' 8 8, s.arg.extractLsb' 0 8, s.arg.extractLsb' 24 8, s.arg.extractLsb' 16 8,
            BitVec.ofNat 8 (2 * c)] ++
            (List.range c).flatMap (fun j => [(wval s j).extractLsb' 8 8, (wval s j).extractLsb' 0 8])) ∧
      t.txlen.toNat = 9 + 2 * c ∧
      (∀ addr, (∀ j, j < 9 + 2 * c → addr ≠ txOffset j) → byteAt t addr = byteAt s addr) ∧
      t = { s with
        mem := t.mem, txlen := t.txlen, raddr := a, rfunc := 0x10,
        code := .ok, phase := .idle, busy := false, done := true, op := none }

/-- R128: ENC.UNL builds the unlock frame, whose payload is fixed; no byte outside TXBUF[0..13) changes, and no state
but TXLEN and REQ does. -/
def Obligations.EncUnlBuildsFrame : Prop :=
  ∀ (a b : Byte) (s : State),
    (a.toNat > 247 → exec (.encUnl a b) s = .next { s with
      code := .invalidAddress, phase := .idle, busy := false, done := true, op := none }) ∧
    (a.toNat ≤ 247 → ∃ t, exec (.encUnl a b) s = .next t ∧
      txBytes t 0 13 = frameBytes a 0x28 [0xFE, 0x01, 0x00, 0x02, 0x04, 0x00, 0x00, 0x00, 0x00] ∧
      (a = 0 → txBytes t 11 2 = [0xFF, 0xEE]) ∧ (a = 1 → txBytes t 11 2 = [0xFB, 0x12]) ∧
      (∀ addr, (∀ j, j < 13 → addr ≠ txOffset j) → byteAt t addr = byteAt s addr) ∧
      t = { s with
        mem := t.mem, txlen := 13, raddr := a, rfunc := 0x28,
        code := .ok, phase := .idle, busy := false, done := true, op := none })

/-! ## Decoding and checking -/

/-- R106: DEC decodes RXBUF[0..RXLEN), testing the length, then the CRC, then bit 7 of the function byte; only RESULT,
RPLEN and the completion are written. -/
def Obligations.DecodeResult : Prop :=
  ∀ (a b : Byte) (s : State),
    let n := s.rxlen.toNat
    let valid : Prop := crc16 (rxBytes s 0 (n - 2)) = rxByte s (n - 1) ++ rxByte s (n - 2)
    (n < 4 → exec (.dec a b) s = .next { s with
      result := { kind := .none, excode := 0, func := 0, addr := 0 }, rplen := 0,
      code := .frameTooShort, phase := .idle, busy := false, done := true, op := none }) ∧
    (4 ≤ n → ¬valid → exec (.dec a b) s = .next { s with
      result := { kind := .none, excode := 0, func := 0, addr := 0 }, rplen := 0,
      code := .crcMismatch, phase := .idle, busy := false, done := true, op := none }) ∧
    (4 ≤ n → valid → (rxByte s 1).getLsbD 7 = true → exec (.dec a b) s = .next { s with
      result := { kind := .exception, excode := rxByte s 2, func := rxByte s 1, addr := rxByte s 0 },
      rplen := BitVec.ofNat 9 (n - 4),
      code := .ok, phase := .idle, busy := false, done := true, op := none }) ∧
    (4 ≤ n → valid → (rxByte s 1).getLsbD 7 = false → exec (.dec a b) s = .next { s with
      result := { kind := .data, excode := 0, func := rxByte s 1, addr := rxByte s 0 },
      rplen := BitVec.ofNat 9 (n - 4),
      code := .ok, phase := .idle, busy := false, done := true, op := none })

/-- R129: CHK does what DEC does, and where DEC gives OK compares the header with REQ: address, then exception, then
function. RESULT and RPLEN stay as DEC writes them. -/
def Obligations.CheckResult : Prop :=
  ∀ (a b : Byte) (s : State), ∃ u, exec (.dec a b) s = .next u ∧
    (u.code ≠ .ok → exec (.chk a b) s = .next u) ∧
    (u.code = .ok →
      (u.result.addr ≠ s.raddr → exec (.chk a b) s = .next { u with code := .unexpectedAddress }) ∧
      (u.result.addr = s.raddr → u.result.kind = .exception →
        exec (.chk a b) s = .next { u with code := .deviceException }) ∧
      (u.result.addr = s.raddr → u.result.kind ≠ .exception → u.result.func ≠ s.rfunc →
        exec (.chk a b) s = .next { u with code := .unexpectedFunction }) ∧
      (u.result.addr = s.raddr → u.result.kind ≠ .exception → u.result.func = s.rfunc →
        exec (.chk a b) s = .next u))

/-- 41_codec.md section 4 (1) and (2): a frame ENC.RAW builds, received unchanged, decodes to the address, function
and payload it was built from; with bit 7 of the function set it is an exception response whose code is the first
payload byte, or the CRC low byte where there is none. -/
def Obligations.EncodeDecodeInverse : Prop :=
  ∀ (a f x y : Byte) (s t u : State),
    let p := (s.arg.extractLsb' 16 16).toNat
    a.toNat ≤ 247 → PayloadAllowed f p (txByte s 4 ++ txByte s 5).toNat →
    exec (.encRaw a f) s = .next t →
    u.rxlen = t.txlen → rxBytes u 0 t.txlen.toNat = txBytes t 0 t.txlen.toNat →
    ∃ v, exec (.dec x y) u = .next v ∧ v.code = .ok ∧ v.result.addr = a ∧ v.result.func = f ∧
      v.rplen.toNat = p ∧ rxBytes v 2 p = txBytes s 2 p ∧
      (f.getLsbD 7 = false → v.result.kind = .data ∧ v.result.excode = 0) ∧
      (f.getLsbD 7 = true → v.result.kind = .exception ∧
        v.result.excode = if p = 0 then (crc16 [a, f]).extractLsb' 0 8 else txByte s 2)

/-- 41_codec.md section 4 (4): a received frame that decodes no longer does once any one of its bytes is changed. -/
def Obligations.CorruptedFrameIsRejected : Prop :=
  ∀ (x y : Byte) (s s' t : State) (j : Nat),
    exec (.dec x y) s = .next t → t.code = .ok →
    s'.rxlen = s.rxlen → j < s.rxlen.toNat → rxByte s' j ≠ rxByte s j →
    (∀ i, i < s.rxlen.toNat → i ≠ j → rxByte s' i = rxByte s i) →
    ∃ t', exec (.dec x y) s' = .next t' ∧ t'.code = .crcMismatch ∧ t'.result.kind = .none ∧ t'.rplen = 0

/-! ## Transport -/

/-- R119: OPEN on an open port changes nothing, on a closed port with `phy_ok` = 0 raises ConnectFailed, and else opens
the port, restarts `idle`, and `re_n` falls. -/
def Obligations.OpenResult : Prop :=
  ∀ (a b : Byte) (s : State),
    (s.opened = true → exec (.openPort a b) s = .next { s with
      code := .ok, phase := .idle, busy := false, done := true, op := none }) ∧
    (s.opened = false → s.phyOk = false → exec (.openPort a b) s = .next { s with
      code := .connectFailed, phase := .idle, busy := false, done := true, op := none }) ∧
    (s.opened = false → s.phyOk = true → ∃ t, exec (.openPort a b) s = .next t ∧ reN t = false ∧
      t = { s with
        opened := true, idle := 0, code := .ok, phase := .idle, busy := false, done := true, op := none })

/-- R120: CLOSE closes the port and completes with OK; a character being received is lost; all else is kept, and on a
closed port nothing changes. -/
def Obligations.CloseResult : Prop :=
  ∀ (a b : Byte) (s : State),
    (∃ t, exec (.closePort a b) s = .next t ∧ reN t = true ∧ de t = false ∧
      t = { s with
        opened := false, lineChar := s.lineChar.map (fun c => { c with heard := false }),
        code := .ok, phase := .idle, busy := false, done := true, op := none }) ∧
    (MachineInv s → s.opened = false → exec (.closePort a b) s = .next { s with
      code := .ok, phase := .idle, busy := false, done := true, op := none })

/-- 42_transport.md section 4: XCHG and SEND raise NotOpen on a closed port, then LengthError for a TXLEN outside 1 to
256, and neither then changes anything else; else they clear RXLEN, RESULT and RPLEN (XCHG also `ovf`) and go to
WAIT_IDLE. -/
def Obligations.ExchangeStart : Prop :=
  ∀ (a b : Byte) (s : State),
    (s.opened = false → ∀ i ∈ [Instr.xchg a b, Instr.send a b], exec i s = .next { s with
      code := .notOpen, phase := .idle, busy := false, done := true, op := none }) ∧
    (s.opened = true → s.txlen.toNat < 1 ∨ s.txlen.toNat > 256 →
      ∀ i ∈ [Instr.xchg a b, Instr.send a b], exec i s = .next { s with
        code := .lengthError, phase := .idle, busy := false, done := true, op := none }) ∧
    (s.opened = true → 1 ≤ s.txlen.toNat → s.txlen.toNat ≤ 256 →
      exec (.xchg a b) s = .next { s with
        rxlen := 0, result := { kind := .none, excode := 0, func := 0, addr := 0 }, rplen := 0,
        ovf := false, phase := .waitIdle } ∧
      exec (.send a b) s = .next { s with
        rxlen := 0, result := { kind := .none, excode := 0, func := 0, addr := 0 }, rplen := 0,
        phase := .waitIdle })

/-- R111: WAIT_IDLE is left for TX at once when the silence condition of R110 is true, and until then by nothing but
reset; R160: on a line whose characters leave gaps shorter than SILENCE for ever it is never left. That the transition
comes before an input that waits at the same instant is the model's choice (log 3), and so is the form of a line that
goes on for ever, one tick of each gap being the one after the burst (log 2). -/
def Obligations.WaitIdleHoldsUntilSilence : Prop :=
  ∀ s : State, MachineInv s → s.rstN = true → s.phase = .waitIdle →
    (s.lineChar = none → s.silence.toNat * 5 ≤ s.idle →
      ∃ t, step s = .next t ∧ t.phase = .tx ∧ de t = true ∧ reN t = true ∧ t.k = 1 ∧
        t.txShift = some { bits := characterBits (txByte s 0) (evenParity (txByte s 0)) true, elapsed := 0 } ∧
        t = { s with phase := .tx, k := t.k, txShift := t.txShift }) ∧
    (s.lineChar ≠ none ∨ s.idle < s.silence.toNat * 5 →
      ∀ t, step s = .next t → t.rstN = true → t.phase = .waitIdle ∧ t.txShift = none) ∧
    (∀ (d : Byte) (p q : Bool) (gap : Nat), s.lineChar = none → s.idle < s.silence.toNat * 5 →
      gap + 1 < s.silence.toNat * 5 → s.inputs = [] → s.later = .again [.charStart d p q, .wait 55, .wait gap] →
      ∀ n, ∃ t, runSteps n s = some t ∧ t.phase = .waitIdle ∧ t.busy = true ∧ t.done = false ∧ t.txShift = none)

/-- R109: a character is a start bit 0, the data bits least significant first, the parity bit, which makes the number
of 1s among data and parity even, and a stop bit, each 5 ticks (one bit time) long on `txd`; `txd` is 1 where none is
being sent. The start bit, the order of the bits and the parity are general knowledge that the spec marks so, not its
source's (log 20). -/
def Obligations.CharacterFormat : Prop :=
  (∀ (d : Byte) (p q : Bool),
    (characterBits d p q).getLsbD 0 = false ∧ (∀ j, j < 8 → (characterBits d p q).getLsbD (1 + j) = d.getLsbD j) ∧
    (characterBits d p q).getLsbD 9 = p ∧ (characterBits d p q).getLsbD 10 = q) ∧
  (∀ d : Byte, ((List.range 8).countP (fun j => d.getLsbD j) + (evenParity d).toNat) % 2 = 0) ∧
  (∀ (s : State) (x : TxShift), s.txShift = some x →
    ∀ j r, r < 5 → x.elapsed = 5 * j + r → txd s = x.bits.getLsbD j) ∧
  (∀ s : State, s.txShift = none → txd s = true)

/-- R112 on a line that is otherwise quiet: from the moment phase TX begins, character j = TXBUF[j] begins 55*j ticks
later with `de` = 1 and `re_n` = 1 (HalfDuplexPins says so of every state of the phase), and after n characters the
phase ends with `idle` at 0: SEND is complete, XCHG awaits the response with `resp` at 0. That any other `op` than
SEND's ends as XCHG's does is the model's choice (log 16). The time that has passed is read off `resp`; that `resp`
counts in phase TX too is the model's inference (log 10). -/
def Obligations.TransmissionIsBackToBack : Prop :=
  ∀ (s : State) (rest : List Input),
    let n := s.txlen.toNat
    s.rstN = true → s.phase = .tx → s.lineChar = none → 1 ≤ n → s.k = 1 →
    s.txShift = some { bits := characterBits (txByte s 0) (evenParity (txByte s 0)) true, elapsed := 0 } →
    s.inputs = .wait (55 * n) :: rest →
    (∀ j, j < n → ∃ t, runSteps j s = some t ∧ t.phase = .tx ∧ de t = true ∧ reN t = true ∧
      t.txShift = some { bits := characterBits (txByte s j) (evenParity (txByte s j)) true, elapsed := 0 } ∧
      t.resp = s.resp + 55 * j ∧ t.inputs = .wait (55 * (n - j)) :: rest) ∧
    (∃ t, runSteps n s = some t ∧ t.txShift = none ∧ de t = false ∧ t.idle = 0 ∧ t.inputs = rest ∧
      t.mem = s.mem ∧ t.txlen = s.txlen ∧
      (s.op = some 0x33 → t.phase = .idle ∧ t.busy = false ∧ t.done = true ∧ t.code = .ok) ∧
      (s.op ≠ some 0x33 → t.phase = .rxWait ∧ t.resp = 0))

/-- Nothing host or line does stops or changes a transmission (42_transport.md section 2): out of reset, a step in
phase TX leaves the frame in TXBUF[0..TXLEN) alone and the character on `txd` its bits, as far along as time has
passed; a character gives way only at the end of its 55 ticks, to the next byte of the frame or, from the last, to the
end of the phase. The time that passes is read off `resp`, which the model counts in every phase (log 10). -/
def Obligations.NothingStopsATransmission : Prop :=
  ∀ s t : State, MachineInv s → s.rstN = true → s.phase = .tx → step s = .next t → t.rstN = true →
    t.txlen = s.txlen ∧ t.mem = s.mem ∧ ∃ x, s.txShift = some x ∧
      ((t.phase = .tx ∧ t.k = s.k ∧ ∃ y, t.txShift = some y ∧ y.bits = x.bits ∧ x.elapsed ≤ y.elapsed ∧
          t.resp + x.elapsed = s.resp + y.elapsed) ∨
        (t.phase = .tx ∧ s.k < s.txlen.toNat ∧ t.k = s.k + 1 ∧ t.idle = 0 ∧ t.resp = s.resp + (55 - x.elapsed) ∧
          t.txShift = some { bits := characterBits (txByte s s.k) (evenParity (txByte s s.k)) true, elapsed := 0 }) ∨
        (s.k = s.txlen.toNat ∧ t.txShift = none ∧ t.idle = 0 ∧
          ((s.op = some 0x33 ∧ t.phase = .idle ∧ t.code = .ok ∧ t.resp = s.resp + (55 - x.elapsed)) ∨
            (s.op = some 0x32 ∧ t.phase = .rxWait ∧ t.resp = 0 ∧ t.rxlen = 0))))

/-- R113: a character whose start bit begins while the receiver is enabled is heard from its start, any other is not; a
character on the line keeps its bits, an unheard one is never heard later, a heard one stays so while the receiver is
enabled, and one that ends unheard leaves no trace in the buffers, RXLEN and the flags. -/
def Obligations.ReceiverHearsFromTheStart : Prop :=
  (∀ (s : State) (d : Byte) (p q : Bool) (rest : List Input),
    HasTurn s (.charStart d p q) rest → s.lineChar = none →
    step s = .next { s with
      lineChar := some { data := d, parity := p, stop := q, elapsed := 0, heard := s.opened && s.phase != .tx },
      inputs := rest }) ∧
  (∀ (s t : State) (c c' : LineChar), step s = .next t → s.lineChar = some c → t.lineChar = some c' →
    c'.data = c.data ∧ c'.parity = c.parity ∧ c'.stop = c.stop ∧ c.elapsed ≤ c'.elapsed ∧
      (c.heard = false → c'.heard = false) ∧
      (s.rstN = true → c.heard = true → c'.heard = true ∨ reN t = true)) ∧
  (∀ (s t : State) (c : LineChar), step s = .next t → s.rstN = true → t.rstN = true →
    s.lineChar = some c → c.heard = false → t.lineChar = none →
    t.mem = s.mem ∧ t.rxlen = s.rxlen ∧ t.ovf = s.ovf ∧ t.rxerr = s.rxerr ∧ t.late = s.late)

/-- 42_transport.md section 3, and 60_exceptions.md section 4 for the same instant: a heard character that ends in
RX_WAIT or RX_ACTIVE, no later than the timeout, is stored, or dropped with `ovf` where RXBUF is full; a bad parity or
stop bit sets RXERR only; no other byte of memory and no other state changes. A wait that would go on past the
character's end stops there, and the rest of it is still to come. -/
def Obligations.ReceivedCharacterIsStored : Prop :=
  ∀ (s : State) (c : LineChar) (n : Nat) (rest : List Input),
    HasTurn s (.wait n) rest → 55 - c.elapsed ≤ n → s.phase = .rxWait ∨ s.phase = .rxActive → s.opened = true →
    s.txShift = none → s.lineChar = some c → c.heard = true → c.elapsed < 55 →
    s.resp + (55 - c.elapsed) ≤ s.timeout.toNat * 48 →
    ∃ t, step s = .next t ∧
      (s.rxlen.toNat < 256 → rxByte t s.rxlen.toNat = c.data ∧ t.rxlen.toNat = s.rxlen.toNat + 1 ∧ t.ovf = s.ovf ∧
        ∀ addr, addr ≠ rxOffset s.rxlen.toNat → byteAt t addr = byteAt s addr) ∧
      (256 ≤ s.rxlen.toNat → t.mem = s.mem ∧ t.rxlen = s.rxlen ∧ t.ovf = true) ∧
      t = { s with
        mem := t.mem, rxlen := t.rxlen, ovf := t.ovf,
        rxerr := s.rxerr || !(c.parity == evenParity c.data && c.stop),
        idle := 0, resp := s.resp + (55 - c.elapsed), phase := .rxActive, lineChar := none,
        inputs := if n = 55 - c.elapsed then rest else .wait (n - (55 - c.elapsed)) :: rest }

/-- R116: a heard character that ends in IDLE, EXEC or WAIT_IDLE is discarded: LATE is set, `idle` restarts, and
nothing else changes but the timer `resp`; that `resp` counts in these phases is the model's inference (log 10). A wait
that would go on past the character's end stops there, and the rest of it is still to come. -/
def Obligations.LateCharacterIsDiscarded : Prop :=
  ∀ (s : State) (c : LineChar) (n : Nat) (rest : List Input),
    HasTurn s (.wait n) rest → 55 - c.elapsed ≤ n →
    s.phase = .idle ∨ s.phase = .exec ∨ s.phase = .waitIdle → s.opened = true →
    s.txShift = none → s.lineChar = some c → c.heard = true → c.elapsed < 55 →
    step s = .next { s with
      late := true, idle := 0, resp := s.resp + (55 - c.elapsed), lineChar := none,
      inputs := if n = 55 - c.elapsed then rest else .wait (n - (55 - c.elapsed)) :: rest }

/-- R117: RX_WAIT ends with Timeout at once when `resp` has reached TIMEOUT (with TIMEOUT = 0, whatever comes), with
RXLEN = 0, and until then only a received character or reset ends it. That the timeout comes before an input that waits
at the same instant is the model's choice (log 3). -/
def Obligations.ResponseTimeout : Prop :=
  ∀ s : State, MachineInv s → s.rstN = true → s.phase = .rxWait →
    s.rxlen = 0 ∧
    (s.timeout.toNat * 48 ≤ s.resp → step s = .next { s with
      code := .timeout, phase := .idle, busy := false, done := true, op := none }) ∧
    (s.resp < s.timeout.toNat * 48 → ∀ t, step s = .next t → t.rstN = true →
      t.phase = .rxWait ∨ (t.phase = .rxActive ∧ ∃ c, s.lineChar = some c ∧ c.heard = true))

/-- R118: RX_ACTIVE ends at once when the silence condition is true or `resp` has reached TIMEOUT, with RxOverflow, then
PartialFrame, then OK; until then it goes on. That the end comes before an input that waits at the same instant is the
model's choice (log 3). -/
def Obligations.ReceptionEnd : Prop :=
  ∀ s : State, MachineInv s → s.rstN = true → s.phase = .rxActive →
    ((s.lineChar = none ∧ s.silence.toNat * 5 ≤ s.idle) ∨ s.timeout.toNat * 48 ≤ s.resp →
      step s = .next { s with
        code := if s.ovf = true then .rxOverflow else if s.rxlen.toNat < 4 then .partialFrame else .ok,
        phase := .idle, busy := false, done := true, op := none }) ∧
    (¬((s.lineChar = none ∧ s.silence.toNat * 5 ≤ s.idle) ∨ s.timeout.toNat * 48 ≤ s.resp) →
      ∀ t, step s = .next t → t.rstN = true → t.phase = .rxActive)

/-- A reply of 4 to 256 characters back to back, then silence, all within the timeout: the exchange completes with OK,
RXLEN is the reply's length and RXBUF holds its bytes; nothing else of memory changes. That the exchange ends before the
inputs that wait behind the silence are taken is the model's choice (log 3). -/
def Obligations.ExchangeReceivesReply : Prop :=
  ∀ (s : State) (reply : List Byte) (rest : List Input),
    s.rstN = true → s.opened = true → s.phase = .rxWait → s.lineChar = none → s.txShift = none →
    s.rxlen = 0 → s.ovf = false → 1 ≤ s.silence.toNat →
    4 ≤ reply.length → reply.length ≤ 256 →
    s.resp + 55 * reply.length + 5 * s.silence.toNat ≤ s.timeout.toNat * 48 →
    s.inputs = replyInputs reply ++ .wait (5 * s.silence.toNat) :: rest →
    ∃ t, runSteps (2 * reply.length + 2) s = some t ∧
      t.code = .ok ∧ t.phase = .idle ∧ t.busy = false ∧ t.done = true ∧ t.opened = true ∧
      t.rxlen.toNat = reply.length ∧ rxBytes t 0 reply.length = reply ∧
      t.rxerr = s.rxerr ∧ t.late = s.late ∧ t.txlen = s.txlen ∧ t.inputs = rest ∧
      (∀ addr, (∀ j, j < reply.length → addr ≠ rxOffset j) → byteAt t addr = byteAt s addr)

/-- SEND on a silent line: within TXLEN + 3 steps of the engine's first it has completed with OK, RXLEN, RESULT and
RPLEN cleared, and the frame and the port are as they were (42_transport.md section 4). A silent line and an idle host
are the premise that no input is left and `later` is quiet (log 2). -/
def Obligations.SendCompletes : Prop :=
  ∀ (s : State) (a b : Byte),
    MachineInv s → s.rstN = true → s.phase = .exec → decode s.cmd = .ok (.send a b) → s.opened = true →
    1 ≤ s.txlen.toNat → s.txlen.toNat ≤ 256 → s.lineChar = none → s.inputs = [] → s.later = .quiet →
    ∃ k t, k ≤ s.txlen.toNat + 3 ∧ runSteps k s = some t ∧
      t.code = .ok ∧ t.phase = .idle ∧ t.busy = false ∧ t.done = true ∧
      t.rxlen = 0 ∧ t.result.kind = .none ∧ t.rplen = 0 ∧ t.opened = true ∧ t.mem = s.mem ∧ t.txlen = s.txlen

/-- XCHG on a line that stays silent: within TXLEN + 5 steps of the engine's first it has ended with Timeout, and the
port is open and idle, so another XCHG can be accepted (42_transport.md section 5). A silent line and an idle host are
the premise that no input is left and `later` is quiet (log 2). -/
def Obligations.UnansweredExchangeTimesOut : Prop :=
  ∀ (s : State) (a b : Byte),
    MachineInv s → s.rstN = true → s.phase = .exec → decode s.cmd = .ok (.xchg a b) → s.opened = true →
    1 ≤ s.txlen.toNat → s.txlen.toNat ≤ 256 → s.lineChar = none → s.inputs = [] → s.later = .quiet →
    ∃ k t, k ≤ s.txlen.toNat + 5 ∧ runSteps k s = some t ∧
      t.code = .timeout ∧ t.phase = .idle ∧ t.busy = false ∧ t.done = true ∧
      t.rxlen = 0 ∧ t.opened = true ∧ t.mem = s.mem ∧ t.txlen = s.txlen ∧ t.lineChar = none ∧ t.txShift = none

/-! ## Host accesses -/

/-- R46: a read of CTRL, STATUS, CMD, ARG, TIMEOUT, SILENCE, TXLEN, WVAL or TXBUF returns the current value at any
time; a read of CRC, REQ, RXLEN, RESULT, RPLEN or RXBUF returns it while BUSY = 0, and a fresh free value while
BUSY = 1. No read changes anything but `prdata` and, with a free value, the model's count of them. The word of RESULT has
the layout and the kinds of R42. -/
def Obligations.HostReadValues : Prop :=
  (∀ r : DecodedHeader,
    (resultWord r).extractLsb' 0 8 = r.addr ∧ (resultWord r).extractLsb' 8 8 = r.func ∧
    (resultWord r).extractLsb' 16 8 = r.excode ∧ (resultWord r).extractLsb' 24 2 = kindBits r.kind ∧
    (resultWord r).extractLsb' 26 6 = 0) ∧
  [Kind.none, .data, .exception].map kindBits = [0, 1, 2] ∧
  ∀ (s : State) (n : Nat) (rest : List Input), HostReads s n rest →
    let gives : Word → Prop := fun v => step s = .next { s with prdata := v, inputs := rest }
    let givesIdle : Word → Prop := fun v => (s.busy = false → gives v) ∧
      (s.busy = true →
        step s = .next { s with prdata := Config.freeWord s.draws, draws := s.draws + 1, inputs := rest })
    (n = 0 → gives (if s.ie = true then 1 else 0)) ∧ (n = 1 → gives (statusWord s)) ∧
    (n = 2 → gives s.cmd) ∧ (n = 3 → gives s.arg) ∧ (n = 5 → gives (s.timeout.setWidth 32)) ∧
    (n = 6 → gives (s.silence.setWidth 32)) ∧ (n = 8 → gives (s.txlen.setWidth 32)) ∧
    (∀ i, i < 123 → n = 0x80 + i → gives ((wval s i).setWidth 32)) ∧
    (∀ i, i < 256 → n = 0x100 + i → gives ((txByte s i).setWidth 32)) ∧
    (n = 4 → givesIdle (s.crc.setWidth 32)) ∧ (n = 7 → givesIdle ((s.rfunc ++ s.raddr).setWidth 32)) ∧
    (n = 9 → givesIdle (s.rxlen.setWidth 32)) ∧ (n = 10 → givesIdle (resultWord s.result)) ∧
    (n = 11 → givesIdle (s.rplen.setWidth 32)) ∧
    (∀ i, i < 256 → n = 0x200 + i → givesIdle ((rxByte s i).setWidth 32))

/-- R54: the two low bits of the address are ignored, in reads and writes, and nothing traps. -/
def Obligations.MisalignedAccessIsAligned : Prop :=
  ∀ (s : State) (paddr : BitVec 12) (v : Word) (rest : List Input), s.rstN = false ∨ transitionNow s = none →
    (∃ t, step { s with inputs := .write paddr v :: rest } = .next t ∧
      step { s with inputs := .write (paddr &&& 0xFFC) v :: rest } = .next t) ∧
    (∃ t, step { s with inputs := .read paddr :: rest } = .next t ∧
      step { s with inputs := .read (paddr &&& 0xFFC) :: rest } = .next t)

/-- R55: a reserved offset reads 0 and ignores writes; writes to RXBUF, RXLEN, RESULT and RPLEN are ignored; none of
them sets WBUSY, busy or not. -/
def Obligations.ReservedAccess : Prop :=
  ∀ (s : State) (n : Nat) (rest : List Input),
    ((0x0C ≤ n ∧ n ≤ 0x7F) ∨ (0xFB ≤ n ∧ n ≤ 0xFF) ∨ (0x300 ≤ n ∧ n ≤ 0x3FF) →
      (HostReads s n rest → step s = .next { s with prdata := 0, inputs := rest }) ∧
      (∀ v, HostWrites s n v rest → step s = .next { s with inputs := rest })) ∧
    ((9 ≤ n ∧ n ≤ 11) ∨ (0x200 ≤ n ∧ n ≤ 0x2FF) →
      ∀ v, HostWrites s n v rest → step s = .next { s with inputs := rest })

/-- R45: while BUSY = 1 a write to CMD, ARG, CRC, TIMEOUT, SILENCE, REQ, TXLEN, WVAL or TXBUF is ignored and sets
WBUSY; a write to CTRL or STATUS takes effect. -/
def Obligations.BusyWritesAreIgnored : Prop :=
  ∀ (s : State) (n : Nat) (v : Word) (rest : List Input), HostWrites s n v rest → s.busy = true →
    ((2 ≤ n ∧ n ≤ 8) ∨ (0x80 ≤ n ∧ n ≤ 0xFA) ∨ (0x100 ≤ n ∧ n ≤ 0x1FF) →
      step s = .next { s with wbusy := true, inputs := rest }) ∧
    (n = 0 → step s = .next { s with ie := v.getLsbD 0, inputs := rest }) ∧
    (n = 1 → step s = .next { s with
      done := s.done && !v.getLsbD 1, wbusy := s.wbusy && !v.getLsbD 3, rxerr := s.rxerr && !v.getLsbD 4,
      late := s.late && !v.getLsbD 5, inputs := rest })

/-- R33 and the layout of STATUS (10_state.md section 3): each field in its place with the numbers of 60_exceptions.md
section 1, reserved bits 0; a write changes only DONE, WBUSY, RXERR and LATE, busy or not. -/
def Obligations.StatusWordAndWrite : Prop :=
  (∀ s : State,
    (statusWord s).getLsbD 0 = s.busy ∧ (statusWord s).getLsbD 1 = s.done ∧ (statusWord s).getLsbD 2 = s.opened ∧
    (statusWord s).getLsbD 3 = s.wbusy ∧ (statusWord s).getLsbD 4 = s.rxerr ∧ (statusWord s).getLsbD 5 = s.late ∧
    (statusWord s).extractLsb' 6 2 = 0 ∧ (statusWord s).extractLsb' 8 8 = codeByte s.code ∧
    (statusWord s).extractLsb' 16 3 = phaseBits s.phase ∧ (statusWord s).extractLsb' 19 13 = 0) ∧
  [ResultCode.ok, .connectFailed, .timeout, .partialFrame, .frameTooShort, .crcMismatch, .deviceException,
    .unexpectedAddress, .unexpectedFunction, .illegalCommand, .notOpen, .lengthError, .invalidAddress,
    .rxOverflow].map codeByte = (List.range 14).map (BitVec.ofNat 8) ∧
  [Phase.idle, .exec, .waitIdle, .tx, .rxWait, .rxActive].map phaseBits = (List.range 6).map (BitVec.ofNat 3) ∧
  (∀ (s : State) (v : Word) (rest : List Input), HostWrites s 1 v rest →
    step s = .next { s with
      done := s.done && !v.getLsbD 1, wbusy := s.wbusy && !v.getLsbD 3, rxerr := s.rxerr && !v.getLsbD 4,
      late := s.late && !v.getLsbD 5, inputs := rest })

/-- 10_state.md section 3: a write while BUSY = 0 stores the register's bits and no others; SILENCE stores 1 for 0. -/
def Obligations.OperandWrites : Prop :=
  ∀ (s : State) (n : Nat) (v : Word) (rest : List Input), HostWrites s n v rest → s.busy = false →
    (n = 0 → step s = .next { s with ie := v.getLsbD 0, inputs := rest }) ∧
    (n = 3 → step s = .next { s with arg := v, inputs := rest }) ∧
    (n = 4 → step s = .next { s with crc := v.extractLsb' 0 16, inputs := rest }) ∧
    (n = 5 → step s = .next { s with timeout := v.extractLsb' 0 16, inputs := rest }) ∧
    (n = 6 → step s = .next { s with
      silence := if v.extractLsb' 0 16 = 0 then 1 else v.extractLsb' 0 16, inputs := rest }) ∧
    (n = 7 → step s = .next { s with raddr := v.extractLsb' 0 8, rfunc := v.extractLsb' 8 8, inputs := rest }) ∧
    (n = 8 → step s = .next { s with txlen := v.extractLsb' 0 9, inputs := rest })

/-- 20_memory.md section 3: a write while BUSY = 0 to a TXBUF or WVAL entry stores its low 8 or 16 bits there, and no
other byte of memory and no other state changes. -/
def Obligations.BufferWrites : Prop :=
  ∀ (s : State) (i : Nat) (v : Word) (rest : List Input), s.busy = false →
    (i < 256 → HostWrites s (0x100 + i) v rest →
      ∃ t, step s = .next t ∧ txByte t i = v.extractLsb' 0 8 ∧
        (∀ addr, addr ≠ txOffset i → byteAt t addr = byteAt s addr) ∧ t = { s with mem := t.mem, inputs := rest }) ∧
    (i < 123 → HostWrites s (0x80 + i) v rest →
      ∃ t, step s = .next t ∧ wval t i = v.extractLsb' 0 16 ∧
        (∀ addr, addr ≠ wvalOffset i → addr ≠ wvalOffset i + 1 → byteAt t addr = byteAt s addr) ∧
        t = { s with mem := t.mem, inputs := rest })

/-! ## Reset, completion, interrupt, pins -/

/-- R148: the reset value of every piece of state and of every output pin of R49; the buffers hold unspecified
values. -/
def Obligations.ResetState : Prop :=
  let s := State.reset
  s.ie = false ∧ s.busy = false ∧ s.done = false ∧ s.opened = false ∧ s.wbusy = false ∧ s.rxerr = false ∧
  s.late = false ∧ codeByte s.code = 0x00 ∧ phaseBits s.phase = 0 ∧ s.cmd = 0 ∧ s.arg = 0 ∧ s.crc = 0xFFFF ∧
  s.timeout = 1000 ∧ s.silence = 39 ∧ s.raddr = 0 ∧ s.rfunc = 0 ∧ s.txlen = 0 ∧ s.rxlen = 0 ∧ s.rplen = 0 ∧
  resultWord s.result = 0 ∧ s.op = none ∧ s.idle = 0 ∧ s.resp = 0 ∧ s.ovf = false ∧ s.k = 0 ∧ s.txShift = none ∧
  receiverBits s = [] ∧ s.prdata = 0 ∧ irq s = false ∧ txd s = true ∧ de s = false ∧ reN s = true ∧
  pready s = true ∧ pslverr s = false ∧
  (∀ a, byteAt s a = Config.unwritten s.epoch a)

/-- R147: a command in progress is abandoned without completion; in reset, reads return 0, writes do nothing, and time
and line leave the block alone; when `rst_n` returns to 1 every field of the block holds its reset value. That the fields
hold their reset values from the assertion of `rst_n` on is the model's choice (log 11). -/
def Obligations.ResetAbandonsEverything : Prop :=
  let atReset : State → Prop := fun t => t = { State.reset with
    lineChar := t.lineChar, rstN := t.rstN, phyOk := t.phyOk, draws := t.draws, epoch := t.epoch,
    inputs := t.inputs, later := t.later }
  (∀ (s : State) (rest : List Input), HasTurn s (.rst false) rest →
    ∃ t, step s = .next t ∧ t.rstN = false ∧ t.inputs = rest ∧ t.phyOk = s.phyOk ∧ atReset t) ∧
  (∀ (s : State) (i : Input) (rest : List Input), s.rstN = false → atReset s → s.inputs = i :: rest →
    ∃ t, step s = .next t ∧ t.inputs = rest ∧ atReset t ∧
      (i ≠ .rst true → t.rstN = false) ∧ (i = .rst true → t.rstN = true))

/-- R137: `irq` is CTRL.IE and STATUS.DONE; DONE rises only when a command ends, and falls only by a host write of 1 to
STATUS bit 1, by the acceptance of a command, or by reset. -/
def Obligations.InterruptFollowsCompletion : Prop :=
  (∀ s : State, irq s = (s.ie && s.done)) ∧
  (∀ s t : State, MachineInv s → step s = .next t → s.rstN = true → t.rstN = true →
    (s.done = false → t.done = true → s.phase ≠ .idle ∧ t.phase = .idle ∧ t.busy = false) ∧
    (s.done = true → t.done = false →
      (∃ v rest, HostWrites s 1 v rest ∧ v.getLsbD 1 = true) ∨
        (∃ w rest, HostWrites s 2 w rest ∧ s.busy = false ∧ t.cmd = w)))

/-- R135: out of reset, a command that ends does so with PHASE = 0, DONE = 1 and no `op`, and STATUS.CODE changes at no
other time. -/
def Obligations.EveryCommandEndsInCompletion : Prop :=
  ∀ s t : State, MachineInv s → step s = .next t → t.rstN = true →
    (s.busy = true → t.busy = false → t.phase = .idle ∧ t.done = true ∧ t.op = none) ∧
    (t.code ≠ s.code → s.busy = true ∧ t.busy = false)

/-- R27: STATUS.OPEN is set only by OPEN and cleared only by CLOSE and reset. -/
def Obligations.OpenFlagOwners : Prop :=
  ∀ s t : State, step s = .next t → s.rstN = true → t.rstN = true → t.opened ≠ s.opened →
    s.phase = .exec ∧
      ((t.opened = true ∧ ∃ a b, decode s.cmd = .ok (.openPort a b)) ∨
        (t.opened = false ∧ ∃ a b, decode s.cmd = .ok (.closePort a b)))

/-- The sticky flags (10_state.md section 3): each is set only by its cause and cleared only by a host write of 1 to its
bit, or by reset. -/
def Obligations.StickyFlags : Prop :=
  ∀ s t : State, step s = .next t → s.rstN = true → t.rstN = true →
    (s.wbusy = true → t.wbusy = false → ∃ v rest, HostWrites s 1 v rest ∧ v.getLsbD 3 = true) ∧
    (s.rxerr = true → t.rxerr = false → ∃ v rest, HostWrites s 1 v rest ∧ v.getLsbD 4 = true) ∧
    (s.late = true → t.late = false → ∃ v rest, HostWrites s 1 v rest ∧ v.getLsbD 5 = true) ∧
    (s.wbusy = false → t.wbusy = true → s.busy = true ∧ ∃ n v rest, HostWrites s n v rest ∧
      ((2 ≤ n ∧ n ≤ 8) ∨ (0x80 ≤ n ∧ n ≤ 0xFA) ∨ (0x100 ≤ n ∧ n ≤ 0x1FF))) ∧
    (s.rxerr = false → t.rxerr = true → (s.phase = .rxWait ∨ s.phase = .rxActive) ∧
      ∃ c, s.lineChar = some c ∧ c.heard = true ∧ (c.parity ≠ evenParity c.data ∨ c.stop = false)) ∧
    (s.late = false → t.late = true → s.opened = true ∧ s.phase ≠ .tx ∧ s.phase ≠ .rxWait ∧ s.phase ≠ .rxActive ∧
      ∃ c, s.lineChar = some c ∧ c.heard = true)

/-- Who writes the registers (10_state.md section 3): CTRL, CMD, ARG, TIMEOUT and SILENCE only the host; CRC only the
host and the four CRC commands; REQ and TXLEN only the host and the encoders; RXLEN only the start of XCHG and SEND and
the receiver, which counts it up by one; RESULT and RPLEN only DEC, CHK and the start of XCHG and SEND. -/
def Obligations.RegisterOwners : Prop :=
  ∀ s t : State, step s = .next t → s.rstN = true → t.rstN = true →
    let hostWrote : Nat → Prop := fun n => s.busy = false ∧ ∃ v rest, HostWrites s n v rest
    let ran : (Instr → Prop) → Prop := fun p => s.phase = .exec ∧ ∃ i, decode s.cmd = .ok i ∧ p i
    (t.ie ≠ s.ie → ∃ v rest, HostWrites s 0 v rest) ∧
    (t.cmd ≠ s.cmd → hostWrote 2) ∧ (t.arg ≠ s.arg → hostWrote 3) ∧
    (t.timeout ≠ s.timeout → hostWrote 5) ∧ (t.silence ≠ s.silence → hostWrote 6) ∧
    (t.crc ≠ s.crc → hostWrote 4 ∨ ran (fun i => (opcodeOf i).toNat ∈ [0x01, 0x02, 0x03, 0x04])) ∧
    (t.raddr ≠ s.raddr ∨ t.rfunc ≠ s.rfunc →
      hostWrote 7 ∨ ran (fun i => (opcodeOf i).toNat ∈ [0x10, 0x11, 0x12, 0x13])) ∧
    (t.txlen ≠ s.txlen → hostWrote 8 ∨ ran (fun i => (opcodeOf i).toNat ∈ [0x10, 0x11, 0x12, 0x13])) ∧
    (t.rxlen ≠ s.rxlen →
      (t.rxlen = 0 ∧ ran (fun i => (opcodeOf i).toNat ∈ [0x32, 0x33])) ∨
        ((s.phase = .rxWait ∨ s.phase = .rxActive) ∧ t.rxlen.toNat = s.rxlen.toNat + 1 ∧
          ∃ c, s.lineChar = some c ∧ c.heard = true)) ∧
    (t.result ≠ s.result ∨ t.rplen ≠ s.rplen →
      ran (fun i => (opcodeOf i).toNat ∈ [0x20, 0x21]) ∨
        (t.result = { kind := .none, excode := 0, func := 0, addr := 0 } ∧ t.rplen = 0 ∧
          ran (fun i => (opcodeOf i).toNat ∈ [0x32, 0x33])))

/-- Who writes the buffers (20_memory.md section 3): a TXBUF byte only the host's write of that entry and the encoders,
an RXBUF byte only the receiver in RX_WAIT or RX_ACTIVE, a WVAL byte only the host's write of that entry. -/
def Obligations.BufferOwners : Prop :=
  ∀ (s t : State) (i : Nat), step s = .next t → s.rstN = true → t.rstN = true →
    (i < 256 → txByte t i ≠ txByte s i →
      (s.busy = false ∧ ∃ v rest, HostWrites s (0x100 + i) v rest) ∨
        (s.phase = .exec ∧ ∃ c, decode s.cmd = .ok c ∧ (opcodeOf c).toNat ∈ [0x10, 0x11, 0x12, 0x13])) ∧
    (i < 256 → rxByte t i ≠ rxByte s i →
      (s.phase = .rxWait ∨ s.phase = .rxActive) ∧ s.rxlen.toNat = i ∧ ∃ c, s.lineChar = some c ∧ c.heard = true) ∧
    (i < 123 → wval t i ≠ wval s i → s.busy = false ∧ ∃ v rest, HostWrites s (0x80 + i) v rest)

/-- R48: the pin `phy_ok` matters only to the engine's own move that executes OPEN on a closed port: any other step, also
one taken while that OPEN is pending, gives the same state but for the pin, whatever the pin is; and a change of the pin
changes nothing else. That the engine moves where no input is left is the model's choice (log 2). -/
def Obligations.PhyOkMattersOnlyToOpen : Prop :=
  (∀ (s t : State) (b : Bool), step s = .next t →
    ¬(s.rstN = true ∧ s.phase = .exec ∧ (s.inputs = [] ∨ ∃ rest, s.inputs = .engine :: rest) ∧
      s.opened = false ∧ ∃ x y, decode s.cmd = .ok (.openPort x y)) →
    (∀ l rest, s.inputs ≠ .phy l :: rest) →
    step { s with phyOk := b } = .next { t with phyOk := b }) ∧
  (∀ (s : State) (l : Bool) (rest : List Input), HasTurn s (.phy l) rest →
    step s = .next { s with phyOk := l, inputs := rest })

/-- R50: outside a transmission `txd` = 1 and `de` = 0; `re_n` = 0 exactly when the port is open and the engine is not
in phase TX; `de` = 1 exactly in phase TX; so the block never drives and receives at once. -/
def Obligations.HalfDuplexPins : Prop :=
  ∀ s : State, MachineInv s →
    (s.phase ≠ .tx → txd s = true ∧ de s = false) ∧
    (reN s = false ↔ s.opened = true ∧ s.phase ≠ .tx) ∧
    (de s = true ↔ s.phase = .tx) ∧
    ¬(de s = true ∧ reN s = false) ∧
    (reN s = true → ∀ c, s.lineChar = some c → c.heard = false)

/-! ## The invariant -/

/-- The invariant of the machine holds right after reset. -/
def Obligations.InvariantAtReset : Prop := MachineInv State.reset

/-- Every step keeps the invariant, from every state that has it. That every field has its reset value from the
assertion of `rst_n` on, a clause of the invariant, is the model's choice (log 11): R147 says so of the moment `rst_n`
returns to 1. -/
def Obligations.StepKeepsInvariant : Prop := ∀ s t : State, MachineInv s → step s = .next t → MachineInv t

/-! ## Time -/

/-- The hidden timers (R47, R110), and the first moment at which a silence or a timeout holds (R111, R117, R118): out of
reset, a wait of `n` ticks passes `d` of them, where `d` is `n`, or less where the silence or the timeout that the phase
waits for is reached, or a character the receiver does not hear ends, after `d`; the rest of the wait is still to come.
The `d` ticks add `d` to `resp`, to `idle` exactly when the port is open, and to what has passed of the characters on
`rxd` and `txd`; nothing else changes. That `resp` counts in every phase is the model's inference (log 10), and so is
that an unheard character ends without restarting `idle` (log 9). -/
def Obligations.TimersCount : Prop :=
  ∀ (s : State) (n d : Nat) (rest : List Input), HasTurn s (.wait n) rest → d ≤ n →
    (∀ c, s.lineChar = some c → c.elapsed + d < 55 ∨ (c.heard = false ∧ c.elapsed + d = 55)) →
    (∀ x, s.txShift = some x → x.elapsed + d < 55) →
    (s.phase = .waitIdle ∨ s.phase = .rxActive → s.lineChar = none → s.txShift = none →
      s.idle + d ≤ s.silence.toNat * 5) →
    (s.phase = .rxWait ∨ s.phase = .rxActive → s.resp + d ≤ s.timeout.toNat * 48) →
    (d = n ∨ (∃ c, s.lineChar = some c ∧ c.elapsed + d = 55) ∨
      ((s.phase = .waitIdle ∨ s.phase = .rxActive) ∧ s.lineChar = none ∧ s.txShift = none ∧
        s.idle + d = s.silence.toNat * 5) ∨
      ((s.phase = .rxWait ∨ s.phase = .rxActive) ∧ s.resp + d = s.timeout.toNat * 48)) →
    step s = .next { s with
      resp := s.resp + d, idle := if s.opened = true then s.idle + d else s.idle,
      lineChar := (s.lineChar.map (fun c => { c with elapsed := c.elapsed + d })).filter
        (fun c => decide (c.elapsed < 55)),
      txShift := s.txShift.map (fun x => { x with elapsed := x.elapsed + d }),
      inputs := if d = n then rest else .wait (n - d) :: rest }
end

