-- ==== Sys2Proof/Laws/State.lean ====
section
/-! SUPPORT. What each named update does to each field of State: one lemma per field per update, so that no later
proof unfolds a record update. -/

namespace Sys2Proof.Machine

section complete

@[simp] theorem complete_ie (c : ResultCode) (s : State) : (complete c s).ie = s.ie := rfl
@[simp] theorem complete_busy (c : ResultCode) (s : State) : (complete c s).busy = false := rfl
@[simp] theorem complete_done (c : ResultCode) (s : State) : (complete c s).done = true := rfl
@[simp] theorem complete_opened (c : ResultCode) (s : State) : (complete c s).opened = s.opened := rfl
@[simp] theorem complete_wbusy (c : ResultCode) (s : State) : (complete c s).wbusy = s.wbusy := rfl
@[simp] theorem complete_rxerr (c : ResultCode) (s : State) : (complete c s).rxerr = s.rxerr := rfl
@[simp] theorem complete_late (c : ResultCode) (s : State) : (complete c s).late = s.late := rfl
@[simp] theorem complete_code (c : ResultCode) (s : State) : (complete c s).code = c := rfl
@[simp] theorem complete_phase (c : ResultCode) (s : State) : (complete c s).phase = .idle := rfl
@[simp] theorem complete_cmd (c : ResultCode) (s : State) : (complete c s).cmd = s.cmd := rfl
@[simp] theorem complete_arg (c : ResultCode) (s : State) : (complete c s).arg = s.arg := rfl
@[simp] theorem complete_crc (c : ResultCode) (s : State) : (complete c s).crc = s.crc := rfl
@[simp] theorem complete_timeout (c : ResultCode) (s : State) : (complete c s).timeout = s.timeout := rfl
@[simp] theorem complete_silence (c : ResultCode) (s : State) : (complete c s).silence = s.silence := rfl
@[simp] theorem complete_raddr (c : ResultCode) (s : State) : (complete c s).raddr = s.raddr := rfl
@[simp] theorem complete_rfunc (c : ResultCode) (s : State) : (complete c s).rfunc = s.rfunc := rfl
@[simp] theorem complete_txlen (c : ResultCode) (s : State) : (complete c s).txlen = s.txlen := rfl
@[simp] theorem complete_rxlen (c : ResultCode) (s : State) : (complete c s).rxlen = s.rxlen := rfl
@[simp] theorem complete_result (c : ResultCode) (s : State) : (complete c s).result = s.result := rfl
@[simp] theorem complete_rplen (c : ResultCode) (s : State) : (complete c s).rplen = s.rplen := rfl
@[simp] theorem complete_mem (c : ResultCode) (s : State) : (complete c s).mem = s.mem := rfl
@[simp] theorem complete_op (c : ResultCode) (s : State) : (complete c s).op = none := rfl
@[simp] theorem complete_idle (c : ResultCode) (s : State) : (complete c s).idle = s.idle := rfl
@[simp] theorem complete_resp (c : ResultCode) (s : State) : (complete c s).resp = s.resp := rfl
@[simp] theorem complete_ovf (c : ResultCode) (s : State) : (complete c s).ovf = s.ovf := rfl
@[simp] theorem complete_k (c : ResultCode) (s : State) : (complete c s).k = s.k := rfl
@[simp] theorem complete_lineChar (c : ResultCode) (s : State) : (complete c s).lineChar = s.lineChar := rfl
@[simp] theorem complete_txShift (c : ResultCode) (s : State) : (complete c s).txShift = s.txShift := rfl
@[simp] theorem complete_rstN (c : ResultCode) (s : State) : (complete c s).rstN = s.rstN := rfl
@[simp] theorem complete_phyOk (c : ResultCode) (s : State) : (complete c s).phyOk = s.phyOk := rfl
@[simp] theorem complete_prdata (c : ResultCode) (s : State) : (complete c s).prdata = s.prdata := rfl
@[simp] theorem complete_draws (c : ResultCode) (s : State) : (complete c s).draws = s.draws := rfl
@[simp] theorem complete_epoch (c : ResultCode) (s : State) : (complete c s).epoch = s.epoch := rfl
@[simp] theorem complete_later (c : ResultCode) (s : State) : (complete c s).later = s.later := rfl
@[simp] theorem complete_inputs (c : ResultCode) (s : State) : (complete c s).inputs = s.inputs := rfl

end complete

section accept

@[simp] theorem accept_ie (w : Word) (s : State) : (accept w s).ie = s.ie := rfl
@[simp] theorem accept_busy (w : Word) (s : State) : (accept w s).busy = true := rfl
@[simp] theorem accept_done (w : Word) (s : State) : (accept w s).done = false := rfl
@[simp] theorem accept_opened (w : Word) (s : State) : (accept w s).opened = s.opened := rfl
@[simp] theorem accept_wbusy (w : Word) (s : State) : (accept w s).wbusy = s.wbusy := rfl
@[simp] theorem accept_rxerr (w : Word) (s : State) : (accept w s).rxerr = s.rxerr := rfl
@[simp] theorem accept_late (w : Word) (s : State) : (accept w s).late = s.late := rfl
@[simp] theorem accept_code (w : Word) (s : State) : (accept w s).code = s.code := rfl
@[simp] theorem accept_phase (w : Word) (s : State) : (accept w s).phase = .exec := rfl
@[simp] theorem accept_cmd (w : Word) (s : State) : (accept w s).cmd = w := rfl
@[simp] theorem accept_arg (w : Word) (s : State) : (accept w s).arg = s.arg := rfl
@[simp] theorem accept_crc (w : Word) (s : State) : (accept w s).crc = s.crc := rfl
@[simp] theorem accept_timeout (w : Word) (s : State) : (accept w s).timeout = s.timeout := rfl
@[simp] theorem accept_silence (w : Word) (s : State) : (accept w s).silence = s.silence := rfl
@[simp] theorem accept_raddr (w : Word) (s : State) : (accept w s).raddr = s.raddr := rfl
@[simp] theorem accept_rfunc (w : Word) (s : State) : (accept w s).rfunc = s.rfunc := rfl
@[simp] theorem accept_txlen (w : Word) (s : State) : (accept w s).txlen = s.txlen := rfl
@[simp] theorem accept_rxlen (w : Word) (s : State) : (accept w s).rxlen = s.rxlen := rfl
@[simp] theorem accept_result (w : Word) (s : State) : (accept w s).result = s.result := rfl
@[simp] theorem accept_rplen (w : Word) (s : State) : (accept w s).rplen = s.rplen := rfl
@[simp] theorem accept_mem (w : Word) (s : State) : (accept w s).mem = s.mem := rfl
@[simp] theorem accept_op (w : Word) (s : State) : (accept w s).op = some (fieldOp w) := rfl
@[simp] theorem accept_idle (w : Word) (s : State) : (accept w s).idle = s.idle := rfl
@[simp] theorem accept_resp (w : Word) (s : State) : (accept w s).resp = s.resp := rfl
@[simp] theorem accept_ovf (w : Word) (s : State) : (accept w s).ovf = s.ovf := rfl
@[simp] theorem accept_k (w : Word) (s : State) : (accept w s).k = s.k := rfl
@[simp] theorem accept_lineChar (w : Word) (s : State) : (accept w s).lineChar = s.lineChar := rfl
@[simp] theorem accept_txShift (w : Word) (s : State) : (accept w s).txShift = s.txShift := rfl
@[simp] theorem accept_rstN (w : Word) (s : State) : (accept w s).rstN = s.rstN := rfl
@[simp] theorem accept_phyOk (w : Word) (s : State) : (accept w s).phyOk = s.phyOk := rfl
@[simp] theorem accept_prdata (w : Word) (s : State) : (accept w s).prdata = s.prdata := rfl
@[simp] theorem accept_draws (w : Word) (s : State) : (accept w s).draws = s.draws := rfl
@[simp] theorem accept_epoch (w : Word) (s : State) : (accept w s).epoch = s.epoch := rfl
@[simp] theorem accept_later (w : Word) (s : State) : (accept w s).later = s.later := rfl
@[simp] theorem accept_inputs (w : Word) (s : State) : (accept w s).inputs = s.inputs := rfl

end accept

section withMem

@[simp] theorem withMem_ie (m : Memory) (s : State) : (withMem m s).ie = s.ie := rfl
@[simp] theorem withMem_busy (m : Memory) (s : State) : (withMem m s).busy = s.busy := rfl
@[simp] theorem withMem_done (m : Memory) (s : State) : (withMem m s).done = s.done := rfl
@[simp] theorem withMem_opened (m : Memory) (s : State) : (withMem m s).opened = s.opened := rfl
@[simp] theorem withMem_wbusy (m : Memory) (s : State) : (withMem m s).wbusy = s.wbusy := rfl
@[simp] theorem withMem_rxerr (m : Memory) (s : State) : (withMem m s).rxerr = s.rxerr := rfl
@[simp] theorem withMem_late (m : Memory) (s : State) : (withMem m s).late = s.late := rfl
@[simp] theorem withMem_code (m : Memory) (s : State) : (withMem m s).code = s.code := rfl
@[simp] theorem withMem_phase (m : Memory) (s : State) : (withMem m s).phase = s.phase := rfl
@[simp] theorem withMem_cmd (m : Memory) (s : State) : (withMem m s).cmd = s.cmd := rfl
@[simp] theorem withMem_arg (m : Memory) (s : State) : (withMem m s).arg = s.arg := rfl
@[simp] theorem withMem_crc (m : Memory) (s : State) : (withMem m s).crc = s.crc := rfl
@[simp] theorem withMem_timeout (m : Memory) (s : State) : (withMem m s).timeout = s.timeout := rfl
@[simp] theorem withMem_silence (m : Memory) (s : State) : (withMem m s).silence = s.silence := rfl
@[simp] theorem withMem_raddr (m : Memory) (s : State) : (withMem m s).raddr = s.raddr := rfl
@[simp] theorem withMem_rfunc (m : Memory) (s : State) : (withMem m s).rfunc = s.rfunc := rfl
@[simp] theorem withMem_txlen (m : Memory) (s : State) : (withMem m s).txlen = s.txlen := rfl
@[simp] theorem withMem_rxlen (m : Memory) (s : State) : (withMem m s).rxlen = s.rxlen := rfl
@[simp] theorem withMem_result (m : Memory) (s : State) : (withMem m s).result = s.result := rfl
@[simp] theorem withMem_rplen (m : Memory) (s : State) : (withMem m s).rplen = s.rplen := rfl
@[simp] theorem withMem_mem (m : Memory) (s : State) : (withMem m s).mem = m := rfl
@[simp] theorem withMem_op (m : Memory) (s : State) : (withMem m s).op = s.op := rfl
@[simp] theorem withMem_idle (m : Memory) (s : State) : (withMem m s).idle = s.idle := rfl
@[simp] theorem withMem_resp (m : Memory) (s : State) : (withMem m s).resp = s.resp := rfl
@[simp] theorem withMem_ovf (m : Memory) (s : State) : (withMem m s).ovf = s.ovf := rfl
@[simp] theorem withMem_k (m : Memory) (s : State) : (withMem m s).k = s.k := rfl
@[simp] theorem withMem_lineChar (m : Memory) (s : State) : (withMem m s).lineChar = s.lineChar := rfl
@[simp] theorem withMem_txShift (m : Memory) (s : State) : (withMem m s).txShift = s.txShift := rfl
@[simp] theorem withMem_rstN (m : Memory) (s : State) : (withMem m s).rstN = s.rstN := rfl
@[simp] theorem withMem_phyOk (m : Memory) (s : State) : (withMem m s).phyOk = s.phyOk := rfl
@[simp] theorem withMem_prdata (m : Memory) (s : State) : (withMem m s).prdata = s.prdata := rfl
@[simp] theorem withMem_draws (m : Memory) (s : State) : (withMem m s).draws = s.draws := rfl
@[simp] theorem withMem_epoch (m : Memory) (s : State) : (withMem m s).epoch = s.epoch := rfl
@[simp] theorem withMem_later (m : Memory) (s : State) : (withMem m s).later = s.later := rfl
@[simp] theorem withMem_inputs (m : Memory) (s : State) : (withMem m s).inputs = s.inputs := rfl

end withMem

section cutReception

@[simp] theorem cutReception_ie (s : State) : (cutReception s).ie = s.ie := rfl
@[simp] theorem cutReception_busy (s : State) : (cutReception s).busy = s.busy := rfl
@[simp] theorem cutReception_done (s : State) : (cutReception s).done = s.done := rfl
@[simp] theorem cutReception_opened (s : State) : (cutReception s).opened = s.opened := rfl
@[simp] theorem cutReception_wbusy (s : State) : (cutReception s).wbusy = s.wbusy := rfl
@[simp] theorem cutReception_rxerr (s : State) : (cutReception s).rxerr = s.rxerr := rfl
@[simp] theorem cutReception_late (s : State) : (cutReception s).late = s.late := rfl
@[simp] theorem cutReception_code (s : State) : (cutReception s).code = s.code := rfl
@[simp] theorem cutReception_phase (s : State) : (cutReception s).phase = s.phase := rfl
@[simp] theorem cutReception_cmd (s : State) : (cutReception s).cmd = s.cmd := rfl
@[simp] theorem cutReception_arg (s : State) : (cutReception s).arg = s.arg := rfl
@[simp] theorem cutReception_crc (s : State) : (cutReception s).crc = s.crc := rfl
@[simp] theorem cutReception_timeout (s : State) : (cutReception s).timeout = s.timeout := rfl
@[simp] theorem cutReception_silence (s : State) : (cutReception s).silence = s.silence := rfl
@[simp] theorem cutReception_raddr (s : State) : (cutReception s).raddr = s.raddr := rfl
@[simp] theorem cutReception_rfunc (s : State) : (cutReception s).rfunc = s.rfunc := rfl
@[simp] theorem cutReception_txlen (s : State) : (cutReception s).txlen = s.txlen := rfl
@[simp] theorem cutReception_rxlen (s : State) : (cutReception s).rxlen = s.rxlen := rfl
@[simp] theorem cutReception_result (s : State) : (cutReception s).result = s.result := rfl
@[simp] theorem cutReception_rplen (s : State) : (cutReception s).rplen = s.rplen := rfl
@[simp] theorem cutReception_mem (s : State) : (cutReception s).mem = s.mem := rfl
@[simp] theorem cutReception_op (s : State) : (cutReception s).op = s.op := rfl
@[simp] theorem cutReception_idle (s : State) : (cutReception s).idle = s.idle := rfl
@[simp] theorem cutReception_resp (s : State) : (cutReception s).resp = s.resp := rfl
@[simp] theorem cutReception_ovf (s : State) : (cutReception s).ovf = s.ovf := rfl
@[simp] theorem cutReception_k (s : State) : (cutReception s).k = s.k := rfl
@[simp] theorem cutReception_lineChar (s : State) :
    (cutReception s).lineChar = s.lineChar.map (fun c => { c with heard := false }) := rfl
@[simp] theorem cutReception_txShift (s : State) : (cutReception s).txShift = s.txShift := rfl
@[simp] theorem cutReception_rstN (s : State) : (cutReception s).rstN = s.rstN := rfl
@[simp] theorem cutReception_phyOk (s : State) : (cutReception s).phyOk = s.phyOk := rfl
@[simp] theorem cutReception_prdata (s : State) : (cutReception s).prdata = s.prdata := rfl
@[simp] theorem cutReception_draws (s : State) : (cutReception s).draws = s.draws := rfl
@[simp] theorem cutReception_epoch (s : State) : (cutReception s).epoch = s.epoch := rfl
@[simp] theorem cutReception_later (s : State) : (cutReception s).later = s.later := rfl
@[simp] theorem cutReception_inputs (s : State) : (cutReception s).inputs = s.inputs := rfl

end cutReception

section clearStatus

@[simp] theorem clearStatus_ie (v : Word) (s : State) : (clearStatus v s).ie = s.ie := rfl
@[simp] theorem clearStatus_busy (v : Word) (s : State) : (clearStatus v s).busy = s.busy := rfl
@[simp] theorem clearStatus_done (v : Word) (s : State) : (clearStatus v s).done = (s.done && !v.getLsbD 1) := rfl
@[simp] theorem clearStatus_opened (v : Word) (s : State) : (clearStatus v s).opened = s.opened := rfl
@[simp] theorem clearStatus_wbusy (v : Word) (s : State) : (clearStatus v s).wbusy = (s.wbusy && !v.getLsbD 3) := rfl
@[simp] theorem clearStatus_rxerr (v : Word) (s : State) : (clearStatus v s).rxerr = (s.rxerr && !v.getLsbD 4) := rfl
@[simp] theorem clearStatus_late (v : Word) (s : State) : (clearStatus v s).late = (s.late && !v.getLsbD 5) := rfl
@[simp] theorem clearStatus_code (v : Word) (s : State) : (clearStatus v s).code = s.code := rfl
@[simp] theorem clearStatus_phase (v : Word) (s : State) : (clearStatus v s).phase = s.phase := rfl
@[simp] theorem clearStatus_cmd (v : Word) (s : State) : (clearStatus v s).cmd = s.cmd := rfl
@[simp] theorem clearStatus_arg (v : Word) (s : State) : (clearStatus v s).arg = s.arg := rfl
@[simp] theorem clearStatus_crc (v : Word) (s : State) : (clearStatus v s).crc = s.crc := rfl
@[simp] theorem clearStatus_timeout (v : Word) (s : State) : (clearStatus v s).timeout = s.timeout := rfl
@[simp] theorem clearStatus_silence (v : Word) (s : State) : (clearStatus v s).silence = s.silence := rfl
@[simp] theorem clearStatus_raddr (v : Word) (s : State) : (clearStatus v s).raddr = s.raddr := rfl
@[simp] theorem clearStatus_rfunc (v : Word) (s : State) : (clearStatus v s).rfunc = s.rfunc := rfl
@[simp] theorem clearStatus_txlen (v : Word) (s : State) : (clearStatus v s).txlen = s.txlen := rfl
@[simp] theorem clearStatus_rxlen (v : Word) (s : State) : (clearStatus v s).rxlen = s.rxlen := rfl
@[simp] theorem clearStatus_result (v : Word) (s : State) : (clearStatus v s).result = s.result := rfl
@[simp] theorem clearStatus_rplen (v : Word) (s : State) : (clearStatus v s).rplen = s.rplen := rfl
@[simp] theorem clearStatus_mem (v : Word) (s : State) : (clearStatus v s).mem = s.mem := rfl
@[simp] theorem clearStatus_op (v : Word) (s : State) : (clearStatus v s).op = s.op := rfl
@[simp] theorem clearStatus_idle (v : Word) (s : State) : (clearStatus v s).idle = s.idle := rfl
@[simp] theorem clearStatus_resp (v : Word) (s : State) : (clearStatus v s).resp = s.resp := rfl
@[simp] theorem clearStatus_ovf (v : Word) (s : State) : (clearStatus v s).ovf = s.ovf := rfl
@[simp] theorem clearStatus_k (v : Word) (s : State) : (clearStatus v s).k = s.k := rfl
@[simp] theorem clearStatus_lineChar (v : Word) (s : State) : (clearStatus v s).lineChar = s.lineChar := rfl
@[simp] theorem clearStatus_txShift (v : Word) (s : State) : (clearStatus v s).txShift = s.txShift := rfl
@[simp] theorem clearStatus_rstN (v : Word) (s : State) : (clearStatus v s).rstN = s.rstN := rfl
@[simp] theorem clearStatus_phyOk (v : Word) (s : State) : (clearStatus v s).phyOk = s.phyOk := rfl
@[simp] theorem clearStatus_prdata (v : Word) (s : State) : (clearStatus v s).prdata = s.prdata := rfl
@[simp] theorem clearStatus_draws (v : Word) (s : State) : (clearStatus v s).draws = s.draws := rfl
@[simp] theorem clearStatus_epoch (v : Word) (s : State) : (clearStatus v s).epoch = s.epoch := rfl
@[simp] theorem clearStatus_later (v : Word) (s : State) : (clearStatus v s).later = s.later := rfl
@[simp] theorem clearStatus_inputs (v : Word) (s : State) : (clearStatus v s).inputs = s.inputs := rfl

end clearStatus

section setResult

@[simp] theorem setResult_ie (r : DecodedHeader) (n : Nat) (s : State) : (setResult r n s).ie = s.ie := rfl
@[simp] theorem setResult_busy (r : DecodedHeader) (n : Nat) (s : State) : (setResult r n s).busy = s.busy := rfl
@[simp] theorem setResult_done (r : DecodedHeader) (n : Nat) (s : State) : (setResult r n s).done = s.done := rfl
@[simp] theorem setResult_opened (r : DecodedHeader) (n : Nat) (s : State) :
    (setResult r n s).opened = s.opened := rfl
@[simp] theorem setResult_wbusy (r : DecodedHeader) (n : Nat) (s : State) : (setResult r n s).wbusy = s.wbusy := rfl
@[simp] theorem setResult_rxerr (r : DecodedHeader) (n : Nat) (s : State) : (setResult r n s).rxerr = s.rxerr := rfl
@[simp] theorem setResult_late (r : DecodedHeader) (n : Nat) (s : State) : (setResult r n s).late = s.late := rfl
@[simp] theorem setResult_code (r : DecodedHeader) (n : Nat) (s : State) : (setResult r n s).code = s.code := rfl
@[simp] theorem setResult_phase (r : DecodedHeader) (n : Nat) (s : State) : (setResult r n s).phase = s.phase := rfl
@[simp] theorem setResult_cmd (r : DecodedHeader) (n : Nat) (s : State) : (setResult r n s).cmd = s.cmd := rfl
@[simp] theorem setResult_arg (r : DecodedHeader) (n : Nat) (s : State) : (setResult r n s).arg = s.arg := rfl
@[simp] theorem setResult_crc (r : DecodedHeader) (n : Nat) (s : State) : (setResult r n s).crc = s.crc := rfl
@[simp] theorem setResult_timeout (r : DecodedHeader) (n : Nat) (s : State) :
    (setResult r n s).timeout = s.timeout := rfl
@[simp] theorem setResult_silence (r : DecodedHeader) (n : Nat) (s : State) :
    (setResult r n s).silence = s.silence := rfl
@[simp] theorem setResult_raddr (r : DecodedHeader) (n : Nat) (s : State) : (setResult r n s).raddr = s.raddr := rfl
@[simp] theorem setResult_rfunc (r : DecodedHeader) (n : Nat) (s : State) : (setResult r n s).rfunc = s.rfunc := rfl
@[simp] theorem setResult_txlen (r : DecodedHeader) (n : Nat) (s : State) : (setResult r n s).txlen = s.txlen := rfl
@[simp] theorem setResult_rxlen (r : DecodedHeader) (n : Nat) (s : State) : (setResult r n s).rxlen = s.rxlen := rfl
@[simp] theorem setResult_result (r : DecodedHeader) (n : Nat) (s : State) : (setResult r n s).result = r := rfl
@[simp] theorem setResult_rplen (r : DecodedHeader) (n : Nat) (s : State) :
    (setResult r n s).rplen = BitVec.ofNat 9 n := rfl
@[simp] theorem setResult_mem (r : DecodedHeader) (n : Nat) (s : State) : (setResult r n s).mem = s.mem := rfl
@[simp] theorem setResult_op (r : DecodedHeader) (n : Nat) (s : State) : (setResult r n s).op = s.op := rfl
@[simp] theorem setResult_idle (r : DecodedHeader) (n : Nat) (s : State) : (setResult r n s).idle = s.idle := rfl
@[simp] theorem setResult_resp (r : DecodedHeader) (n : Nat) (s : State) : (setResult r n s).resp = s.resp := rfl
@[simp] theorem setResult_ovf (r : DecodedHeader) (n : Nat) (s : State) : (setResult r n s).ovf = s.ovf := rfl
@[simp] theorem setResult_k (r : DecodedHeader) (n : Nat) (s : State) : (setResult r n s).k = s.k := rfl
@[simp] theorem setResult_lineChar (r : DecodedHeader) (n : Nat) (s : State) :
    (setResult r n s).lineChar = s.lineChar := rfl
@[simp] theorem setResult_txShift (r : DecodedHeader) (n : Nat) (s : State) :
    (setResult r n s).txShift = s.txShift := rfl
@[simp] theorem setResult_rstN (r : DecodedHeader) (n : Nat) (s : State) : (setResult r n s).rstN = s.rstN := rfl
@[simp] theorem setResult_phyOk (r : DecodedHeader) (n : Nat) (s : State) : (setResult r n s).phyOk = s.phyOk := rfl
@[simp] theorem setResult_prdata (r : DecodedHeader) (n : Nat) (s : State) :
    (setResult r n s).prdata = s.prdata := rfl
@[simp] theorem setResult_draws (r : DecodedHeader) (n : Nat) (s : State) : (setResult r n s).draws = s.draws := rfl
@[simp] theorem setResult_epoch (r : DecodedHeader) (n : Nat) (s : State) : (setResult r n s).epoch = s.epoch := rfl
@[simp] theorem setResult_later (r : DecodedHeader) (n : Nat) (s : State) : (setResult r n s).later = s.later := rfl
@[simp] theorem setResult_inputs (r : DecodedHeader) (n : Nat) (s : State) :
    (setResult r n s).inputs = s.inputs := rfl

end setResult

section startExchange

@[simp] theorem startExchange_ie (s : State) : (startExchange s).ie = s.ie := rfl
@[simp] theorem startExchange_busy (s : State) : (startExchange s).busy = s.busy := rfl
@[simp] theorem startExchange_done (s : State) : (startExchange s).done = s.done := rfl
@[simp] theorem startExchange_opened (s : State) : (startExchange s).opened = s.opened := rfl
@[simp] theorem startExchange_wbusy (s : State) : (startExchange s).wbusy = s.wbusy := rfl
@[simp] theorem startExchange_rxerr (s : State) : (startExchange s).rxerr = s.rxerr := rfl
@[simp] theorem startExchange_late (s : State) : (startExchange s).late = s.late := rfl
@[simp] theorem startExchange_code (s : State) : (startExchange s).code = s.code := rfl
@[simp] theorem startExchange_phase (s : State) : (startExchange s).phase = .waitIdle := rfl
@[simp] theorem startExchange_cmd (s : State) : (startExchange s).cmd = s.cmd := rfl
@[simp] theorem startExchange_arg (s : State) : (startExchange s).arg = s.arg := rfl
@[simp] theorem startExchange_crc (s : State) : (startExchange s).crc = s.crc := rfl
@[simp] theorem startExchange_timeout (s : State) : (startExchange s).timeout = s.timeout := rfl
@[simp] theorem startExchange_silence (s : State) : (startExchange s).silence = s.silence := rfl
@[simp] theorem startExchange_raddr (s : State) : (startExchange s).raddr = s.raddr := rfl
@[simp] theorem startExchange_rfunc (s : State) : (startExchange s).rfunc = s.rfunc := rfl
@[simp] theorem startExchange_txlen (s : State) : (startExchange s).txlen = s.txlen := rfl
@[simp] theorem startExchange_rxlen (s : State) : (startExchange s).rxlen = 0 := rfl
@[simp] theorem startExchange_result (s : State) : (startExchange s).result = .clear := rfl
@[simp] theorem startExchange_rplen (s : State) : (startExchange s).rplen = 0 := rfl
@[simp] theorem startExchange_mem (s : State) : (startExchange s).mem = s.mem := rfl
@[simp] theorem startExchange_op (s : State) : (startExchange s).op = s.op := rfl
@[simp] theorem startExchange_idle (s : State) : (startExchange s).idle = s.idle := rfl
@[simp] theorem startExchange_resp (s : State) : (startExchange s).resp = s.resp := rfl
@[simp] theorem startExchange_ovf (s : State) : (startExchange s).ovf = s.ovf := rfl
@[simp] theorem startExchange_k (s : State) : (startExchange s).k = s.k := rfl
@[simp] theorem startExchange_lineChar (s : State) : (startExchange s).lineChar = s.lineChar := rfl
@[simp] theorem startExchange_txShift (s : State) : (startExchange s).txShift = s.txShift := rfl
@[simp] theorem startExchange_rstN (s : State) : (startExchange s).rstN = s.rstN := rfl
@[simp] theorem startExchange_phyOk (s : State) : (startExchange s).phyOk = s.phyOk := rfl
@[simp] theorem startExchange_prdata (s : State) : (startExchange s).prdata = s.prdata := rfl
@[simp] theorem startExchange_draws (s : State) : (startExchange s).draws = s.draws := rfl
@[simp] theorem startExchange_epoch (s : State) : (startExchange s).epoch = s.epoch := rfl
@[simp] theorem startExchange_later (s : State) : (startExchange s).later = s.later := rfl
@[simp] theorem startExchange_inputs (s : State) : (startExchange s).inputs = s.inputs := rfl

end startExchange

section discardChar

@[simp] theorem discardChar_ie (s : State) : (discardChar s).ie = s.ie := rfl
@[simp] theorem discardChar_busy (s : State) : (discardChar s).busy = s.busy := rfl
@[simp] theorem discardChar_done (s : State) : (discardChar s).done = s.done := rfl
@[simp] theorem discardChar_opened (s : State) : (discardChar s).opened = s.opened := rfl
@[simp] theorem discardChar_wbusy (s : State) : (discardChar s).wbusy = s.wbusy := rfl
@[simp] theorem discardChar_rxerr (s : State) : (discardChar s).rxerr = s.rxerr := rfl
@[simp] theorem discardChar_late (s : State) : (discardChar s).late = true := rfl
@[simp] theorem discardChar_code (s : State) : (discardChar s).code = s.code := rfl
@[simp] theorem discardChar_phase (s : State) : (discardChar s).phase = s.phase := rfl
@[simp] theorem discardChar_cmd (s : State) : (discardChar s).cmd = s.cmd := rfl
@[simp] theorem discardChar_arg (s : State) : (discardChar s).arg = s.arg := rfl
@[simp] theorem discardChar_crc (s : State) : (discardChar s).crc = s.crc := rfl
@[simp] theorem discardChar_timeout (s : State) : (discardChar s).timeout = s.timeout := rfl
@[simp] theorem discardChar_silence (s : State) : (discardChar s).silence = s.silence := rfl
@[simp] theorem discardChar_raddr (s : State) : (discardChar s).raddr = s.raddr := rfl
@[simp] theorem discardChar_rfunc (s : State) : (discardChar s).rfunc = s.rfunc := rfl
@[simp] theorem discardChar_txlen (s : State) : (discardChar s).txlen = s.txlen := rfl
@[simp] theorem discardChar_rxlen (s : State) : (discardChar s).rxlen = s.rxlen := rfl
@[simp] theorem discardChar_result (s : State) : (discardChar s).result = s.result := rfl
@[simp] theorem discardChar_rplen (s : State) : (discardChar s).rplen = s.rplen := rfl
@[simp] theorem discardChar_mem (s : State) : (discardChar s).mem = s.mem := rfl
@[simp] theorem discardChar_op (s : State) : (discardChar s).op = s.op := rfl
@[simp] theorem discardChar_idle (s : State) : (discardChar s).idle = 0 := rfl
@[simp] theorem discardChar_resp (s : State) : (discardChar s).resp = s.resp := rfl
@[simp] theorem discardChar_ovf (s : State) : (discardChar s).ovf = s.ovf := rfl
@[simp] theorem discardChar_k (s : State) : (discardChar s).k = s.k := rfl
@[simp] theorem discardChar_lineChar (s : State) : (discardChar s).lineChar = s.lineChar := rfl
@[simp] theorem discardChar_txShift (s : State) : (discardChar s).txShift = s.txShift := rfl
@[simp] theorem discardChar_rstN (s : State) : (discardChar s).rstN = s.rstN := rfl
@[simp] theorem discardChar_phyOk (s : State) : (discardChar s).phyOk = s.phyOk := rfl
@[simp] theorem discardChar_prdata (s : State) : (discardChar s).prdata = s.prdata := rfl
@[simp] theorem discardChar_draws (s : State) : (discardChar s).draws = s.draws := rfl
@[simp] theorem discardChar_epoch (s : State) : (discardChar s).epoch = s.epoch := rfl
@[simp] theorem discardChar_later (s : State) : (discardChar s).later = s.later := rfl
@[simp] theorem discardChar_inputs (s : State) : (discardChar s).inputs = s.inputs := rfl

end discardChar

section storeChar

@[simp] theorem storeChar_ie (d : Byte) (ok : Bool) (s : State) : (storeChar d ok s).ie = s.ie := rfl
@[simp] theorem storeChar_busy (d : Byte) (ok : Bool) (s : State) : (storeChar d ok s).busy = s.busy := rfl
@[simp] theorem storeChar_done (d : Byte) (ok : Bool) (s : State) : (storeChar d ok s).done = s.done := rfl
@[simp] theorem storeChar_opened (d : Byte) (ok : Bool) (s : State) : (storeChar d ok s).opened = s.opened := rfl
@[simp] theorem storeChar_wbusy (d : Byte) (ok : Bool) (s : State) : (storeChar d ok s).wbusy = s.wbusy := rfl
@[simp] theorem storeChar_rxerr (d : Byte) (ok : Bool) (s : State) :
    (storeChar d ok s).rxerr = (s.rxerr || !ok) := rfl
@[simp] theorem storeChar_late (d : Byte) (ok : Bool) (s : State) : (storeChar d ok s).late = s.late := rfl
@[simp] theorem storeChar_code (d : Byte) (ok : Bool) (s : State) : (storeChar d ok s).code = s.code := rfl
@[simp] theorem storeChar_phase (d : Byte) (ok : Bool) (s : State) : (storeChar d ok s).phase = .rxActive := rfl
@[simp] theorem storeChar_cmd (d : Byte) (ok : Bool) (s : State) : (storeChar d ok s).cmd = s.cmd := rfl
@[simp] theorem storeChar_arg (d : Byte) (ok : Bool) (s : State) : (storeChar d ok s).arg = s.arg := rfl
@[simp] theorem storeChar_crc (d : Byte) (ok : Bool) (s : State) : (storeChar d ok s).crc = s.crc := rfl
@[simp] theorem storeChar_timeout (d : Byte) (ok : Bool) (s : State) : (storeChar d ok s).timeout = s.timeout := rfl
@[simp] theorem storeChar_silence (d : Byte) (ok : Bool) (s : State) : (storeChar d ok s).silence = s.silence := rfl
@[simp] theorem storeChar_raddr (d : Byte) (ok : Bool) (s : State) : (storeChar d ok s).raddr = s.raddr := rfl
@[simp] theorem storeChar_rfunc (d : Byte) (ok : Bool) (s : State) : (storeChar d ok s).rfunc = s.rfunc := rfl
@[simp] theorem storeChar_txlen (d : Byte) (ok : Bool) (s : State) : (storeChar d ok s).txlen = s.txlen := rfl
@[simp] theorem storeChar_rxlen (d : Byte) (ok : Bool) (s : State) :
    (storeChar d ok s).rxlen = if rxFits s then BitVec.ofNat 9 (s.rxlen.toNat + 1) else s.rxlen := rfl
@[simp] theorem storeChar_result (d : Byte) (ok : Bool) (s : State) : (storeChar d ok s).result = s.result := rfl
@[simp] theorem storeChar_rplen (d : Byte) (ok : Bool) (s : State) : (storeChar d ok s).rplen = s.rplen := rfl
@[simp] theorem storeChar_mem (d : Byte) (ok : Bool) (s : State) :
    (storeChar d ok s).mem = if rxFits s then s.mem.set (rxOffset s.rxlen.toNat) d else s.mem := rfl
@[simp] theorem storeChar_op (d : Byte) (ok : Bool) (s : State) : (storeChar d ok s).op = s.op := rfl
@[simp] theorem storeChar_idle (d : Byte) (ok : Bool) (s : State) : (storeChar d ok s).idle = 0 := rfl
@[simp] theorem storeChar_resp (d : Byte) (ok : Bool) (s : State) : (storeChar d ok s).resp = s.resp := rfl
@[simp] theorem storeChar_ovf (d : Byte) (ok : Bool) (s : State) :
    (storeChar d ok s).ovf = (s.ovf || !rxFits s) := rfl
@[simp] theorem storeChar_k (d : Byte) (ok : Bool) (s : State) : (storeChar d ok s).k = s.k := rfl
@[simp] theorem storeChar_lineChar (d : Byte) (ok : Bool) (s : State) :
    (storeChar d ok s).lineChar = s.lineChar := rfl
@[simp] theorem storeChar_txShift (d : Byte) (ok : Bool) (s : State) : (storeChar d ok s).txShift = s.txShift := rfl
@[simp] theorem storeChar_rstN (d : Byte) (ok : Bool) (s : State) : (storeChar d ok s).rstN = s.rstN := rfl
@[simp] theorem storeChar_phyOk (d : Byte) (ok : Bool) (s : State) : (storeChar d ok s).phyOk = s.phyOk := rfl
@[simp] theorem storeChar_prdata (d : Byte) (ok : Bool) (s : State) : (storeChar d ok s).prdata = s.prdata := rfl
@[simp] theorem storeChar_draws (d : Byte) (ok : Bool) (s : State) : (storeChar d ok s).draws = s.draws := rfl
@[simp] theorem storeChar_epoch (d : Byte) (ok : Bool) (s : State) : (storeChar d ok s).epoch = s.epoch := rfl
@[simp] theorem storeChar_later (d : Byte) (ok : Bool) (s : State) : (storeChar d ok s).later = s.later := rfl
@[simp] theorem storeChar_inputs (d : Byte) (ok : Bool) (s : State) : (storeChar d ok s).inputs = s.inputs := rfl

end storeChar

section loadChar

@[simp] theorem loadChar_ie (s : State) : (loadChar s).ie = s.ie := rfl
@[simp] theorem loadChar_busy (s : State) : (loadChar s).busy = s.busy := rfl
@[simp] theorem loadChar_done (s : State) : (loadChar s).done = s.done := rfl
@[simp] theorem loadChar_opened (s : State) : (loadChar s).opened = s.opened := rfl
@[simp] theorem loadChar_wbusy (s : State) : (loadChar s).wbusy = s.wbusy := rfl
@[simp] theorem loadChar_rxerr (s : State) : (loadChar s).rxerr = s.rxerr := rfl
@[simp] theorem loadChar_late (s : State) : (loadChar s).late = s.late := rfl
@[simp] theorem loadChar_code (s : State) : (loadChar s).code = s.code := rfl
@[simp] theorem loadChar_phase (s : State) : (loadChar s).phase = s.phase := rfl
@[simp] theorem loadChar_cmd (s : State) : (loadChar s).cmd = s.cmd := rfl
@[simp] theorem loadChar_arg (s : State) : (loadChar s).arg = s.arg := rfl
@[simp] theorem loadChar_crc (s : State) : (loadChar s).crc = s.crc := rfl
@[simp] theorem loadChar_timeout (s : State) : (loadChar s).timeout = s.timeout := rfl
@[simp] theorem loadChar_silence (s : State) : (loadChar s).silence = s.silence := rfl
@[simp] theorem loadChar_raddr (s : State) : (loadChar s).raddr = s.raddr := rfl
@[simp] theorem loadChar_rfunc (s : State) : (loadChar s).rfunc = s.rfunc := rfl
@[simp] theorem loadChar_txlen (s : State) : (loadChar s).txlen = s.txlen := rfl
@[simp] theorem loadChar_rxlen (s : State) : (loadChar s).rxlen = s.rxlen := rfl
@[simp] theorem loadChar_result (s : State) : (loadChar s).result = s.result := rfl
@[simp] theorem loadChar_rplen (s : State) : (loadChar s).rplen = s.rplen := rfl
@[simp] theorem loadChar_mem (s : State) : (loadChar s).mem = s.mem := rfl
@[simp] theorem loadChar_op (s : State) : (loadChar s).op = s.op := rfl
@[simp] theorem loadChar_idle (s : State) : (loadChar s).idle = s.idle := rfl
@[simp] theorem loadChar_resp (s : State) : (loadChar s).resp = s.resp := rfl
@[simp] theorem loadChar_ovf (s : State) : (loadChar s).ovf = s.ovf := rfl
@[simp] theorem loadChar_k (s : State) : (loadChar s).k = s.k + 1 := rfl
@[simp] theorem loadChar_lineChar (s : State) : (loadChar s).lineChar = s.lineChar := rfl
@[simp] theorem loadChar_txShift (s : State) :
    (loadChar s).txShift = some { bits := characterBits (txByte s s.k) (evenParity (txByte s s.k)) true, elapsed := 0 } := rfl
@[simp] theorem loadChar_rstN (s : State) : (loadChar s).rstN = s.rstN := rfl
@[simp] theorem loadChar_phyOk (s : State) : (loadChar s).phyOk = s.phyOk := rfl
@[simp] theorem loadChar_prdata (s : State) : (loadChar s).prdata = s.prdata := rfl
@[simp] theorem loadChar_draws (s : State) : (loadChar s).draws = s.draws := rfl
@[simp] theorem loadChar_epoch (s : State) : (loadChar s).epoch = s.epoch := rfl
@[simp] theorem loadChar_later (s : State) : (loadChar s).later = s.later := rfl
@[simp] theorem loadChar_inputs (s : State) : (loadChar s).inputs = s.inputs := rfl

end loadChar

section advanceTimers

@[simp] theorem advanceTimers_ie (t : Nat) (s : State) : (advanceTimers t s).ie = s.ie := rfl
@[simp] theorem advanceTimers_busy (t : Nat) (s : State) : (advanceTimers t s).busy = s.busy := rfl
@[simp] theorem advanceTimers_done (t : Nat) (s : State) : (advanceTimers t s).done = s.done := rfl
@[simp] theorem advanceTimers_opened (t : Nat) (s : State) : (advanceTimers t s).opened = s.opened := rfl
@[simp] theorem advanceTimers_wbusy (t : Nat) (s : State) : (advanceTimers t s).wbusy = s.wbusy := rfl
@[simp] theorem advanceTimers_rxerr (t : Nat) (s : State) : (advanceTimers t s).rxerr = s.rxerr := rfl
@[simp] theorem advanceTimers_late (t : Nat) (s : State) : (advanceTimers t s).late = s.late := rfl
@[simp] theorem advanceTimers_code (t : Nat) (s : State) : (advanceTimers t s).code = s.code := rfl
@[simp] theorem advanceTimers_phase (t : Nat) (s : State) : (advanceTimers t s).phase = s.phase := rfl
@[simp] theorem advanceTimers_cmd (t : Nat) (s : State) : (advanceTimers t s).cmd = s.cmd := rfl
@[simp] theorem advanceTimers_arg (t : Nat) (s : State) : (advanceTimers t s).arg = s.arg := rfl
@[simp] theorem advanceTimers_crc (t : Nat) (s : State) : (advanceTimers t s).crc = s.crc := rfl
@[simp] theorem advanceTimers_timeout (t : Nat) (s : State) : (advanceTimers t s).timeout = s.timeout := rfl
@[simp] theorem advanceTimers_silence (t : Nat) (s : State) : (advanceTimers t s).silence = s.silence := rfl
@[simp] theorem advanceTimers_raddr (t : Nat) (s : State) : (advanceTimers t s).raddr = s.raddr := rfl
@[simp] theorem advanceTimers_rfunc (t : Nat) (s : State) : (advanceTimers t s).rfunc = s.rfunc := rfl
@[simp] theorem advanceTimers_txlen (t : Nat) (s : State) : (advanceTimers t s).txlen = s.txlen := rfl
@[simp] theorem advanceTimers_rxlen (t : Nat) (s : State) : (advanceTimers t s).rxlen = s.rxlen := rfl
@[simp] theorem advanceTimers_result (t : Nat) (s : State) : (advanceTimers t s).result = s.result := rfl
@[simp] theorem advanceTimers_rplen (t : Nat) (s : State) : (advanceTimers t s).rplen = s.rplen := rfl
@[simp] theorem advanceTimers_mem (t : Nat) (s : State) : (advanceTimers t s).mem = s.mem := rfl
@[simp] theorem advanceTimers_op (t : Nat) (s : State) : (advanceTimers t s).op = s.op := rfl
@[simp] theorem advanceTimers_idle (t : Nat) (s : State) :
    (advanceTimers t s).idle = if s.opened then s.idle + t else s.idle := rfl
@[simp] theorem advanceTimers_resp (t : Nat) (s : State) : (advanceTimers t s).resp = s.resp + t := rfl
@[simp] theorem advanceTimers_ovf (t : Nat) (s : State) : (advanceTimers t s).ovf = s.ovf := rfl
@[simp] theorem advanceTimers_k (t : Nat) (s : State) : (advanceTimers t s).k = s.k := rfl
@[simp] theorem advanceTimers_lineChar (t : Nat) (s : State) : (advanceTimers t s).lineChar = s.lineChar := rfl
@[simp] theorem advanceTimers_txShift (t : Nat) (s : State) : (advanceTimers t s).txShift = s.txShift := rfl
@[simp] theorem advanceTimers_rstN (t : Nat) (s : State) : (advanceTimers t s).rstN = s.rstN := rfl
@[simp] theorem advanceTimers_phyOk (t : Nat) (s : State) : (advanceTimers t s).phyOk = s.phyOk := rfl
@[simp] theorem advanceTimers_prdata (t : Nat) (s : State) : (advanceTimers t s).prdata = s.prdata := rfl
@[simp] theorem advanceTimers_draws (t : Nat) (s : State) : (advanceTimers t s).draws = s.draws := rfl
@[simp] theorem advanceTimers_epoch (t : Nat) (s : State) : (advanceTimers t s).epoch = s.epoch := rfl
@[simp] theorem advanceTimers_later (t : Nat) (s : State) : (advanceTimers t s).later = s.later := rfl
@[simp] theorem advanceTimers_inputs (t : Nat) (s : State) : (advanceTimers t s).inputs = s.inputs := rfl

end advanceTimers

end Sys2Proof.Machine
end

