-- ==== Sys2Proof/Laws/Line.lean ====
section
/-! SUPPORT. What the line's operations leave unchanged: receiving a character, sending one, and time passing, one
lemma per field. -/

namespace Sys2Proof.Machine

/-- A character is 55 ticks long (R17, log 1). -/
@[simp] theorem ticksPerChar_eq : Config.ticksPerChar = 55 := rfl

/-- SILENCE in ticks (R38, log 1). -/
@[simp] theorem silenceTicks_eq (s : State) : silenceTicks s = s.silence.toNat * 5 := rfl

/-- TIMEOUT in ticks (R37, log 1). -/
@[simp] theorem timeoutTicks_eq (s : State) : timeoutTicks s = s.timeout.toNat * 48 := rfl

section receiveChar

@[simp] theorem receiveChar_ie (d : Byte) (ok : Bool) (s : State) : (receiveChar d ok s).ie = s.ie := by
  unfold receiveChar; split <;> rfl

@[simp] theorem receiveChar_busy (d : Byte) (ok : Bool) (s : State) : (receiveChar d ok s).busy = s.busy := by
  unfold receiveChar; split <;> rfl

@[simp] theorem receiveChar_done (d : Byte) (ok : Bool) (s : State) : (receiveChar d ok s).done = s.done := by
  unfold receiveChar; split <;> rfl

@[simp] theorem receiveChar_opened (d : Byte) (ok : Bool) (s : State) : (receiveChar d ok s).opened = s.opened := by
  unfold receiveChar; split <;> rfl

@[simp] theorem receiveChar_wbusy (d : Byte) (ok : Bool) (s : State) : (receiveChar d ok s).wbusy = s.wbusy := by
  unfold receiveChar; split <;> rfl

@[simp] theorem receiveChar_code (d : Byte) (ok : Bool) (s : State) : (receiveChar d ok s).code = s.code := by
  unfold receiveChar; split <;> rfl

@[simp] theorem receiveChar_cmd (d : Byte) (ok : Bool) (s : State) : (receiveChar d ok s).cmd = s.cmd := by
  unfold receiveChar; split <;> rfl

@[simp] theorem receiveChar_arg (d : Byte) (ok : Bool) (s : State) : (receiveChar d ok s).arg = s.arg := by
  unfold receiveChar; split <;> rfl

@[simp] theorem receiveChar_crc (d : Byte) (ok : Bool) (s : State) : (receiveChar d ok s).crc = s.crc := by
  unfold receiveChar; split <;> rfl

@[simp] theorem receiveChar_timeout (d : Byte) (ok : Bool) (s : State) : (receiveChar d ok s).timeout = s.timeout := by
  unfold receiveChar; split <;> rfl

@[simp] theorem receiveChar_silence (d : Byte) (ok : Bool) (s : State) : (receiveChar d ok s).silence = s.silence := by
  unfold receiveChar; split <;> rfl

@[simp] theorem receiveChar_raddr (d : Byte) (ok : Bool) (s : State) : (receiveChar d ok s).raddr = s.raddr := by
  unfold receiveChar; split <;> rfl

@[simp] theorem receiveChar_rfunc (d : Byte) (ok : Bool) (s : State) : (receiveChar d ok s).rfunc = s.rfunc := by
  unfold receiveChar; split <;> rfl

@[simp] theorem receiveChar_txlen (d : Byte) (ok : Bool) (s : State) : (receiveChar d ok s).txlen = s.txlen := by
  unfold receiveChar; split <;> rfl

@[simp] theorem receiveChar_result (d : Byte) (ok : Bool) (s : State) : (receiveChar d ok s).result = s.result := by
  unfold receiveChar; split <;> rfl

@[simp] theorem receiveChar_rplen (d : Byte) (ok : Bool) (s : State) : (receiveChar d ok s).rplen = s.rplen := by
  unfold receiveChar; split <;> rfl

@[simp] theorem receiveChar_op (d : Byte) (ok : Bool) (s : State) : (receiveChar d ok s).op = s.op := by
  unfold receiveChar; split <;> rfl

@[simp] theorem receiveChar_resp (d : Byte) (ok : Bool) (s : State) : (receiveChar d ok s).resp = s.resp := by
  unfold receiveChar; split <;> rfl

@[simp] theorem receiveChar_k (d : Byte) (ok : Bool) (s : State) : (receiveChar d ok s).k = s.k := by
  unfold receiveChar; split <;> rfl

@[simp] theorem receiveChar_txShift (d : Byte) (ok : Bool) (s : State) : (receiveChar d ok s).txShift = s.txShift := by
  unfold receiveChar; split <;> rfl

@[simp] theorem receiveChar_rstN (d : Byte) (ok : Bool) (s : State) : (receiveChar d ok s).rstN = s.rstN := by
  unfold receiveChar; split <;> rfl

@[simp] theorem receiveChar_phyOk (d : Byte) (ok : Bool) (s : State) : (receiveChar d ok s).phyOk = s.phyOk := by
  unfold receiveChar; split <;> rfl

@[simp] theorem receiveChar_prdata (d : Byte) (ok : Bool) (s : State) : (receiveChar d ok s).prdata = s.prdata := by
  unfold receiveChar; split <;> rfl

@[simp] theorem receiveChar_draws (d : Byte) (ok : Bool) (s : State) : (receiveChar d ok s).draws = s.draws := by
  unfold receiveChar; split <;> rfl

@[simp] theorem receiveChar_epoch (d : Byte) (ok : Bool) (s : State) : (receiveChar d ok s).epoch = s.epoch := by
  unfold receiveChar; split <;> rfl

@[simp] theorem receiveChar_later (d : Byte) (ok : Bool) (s : State) : (receiveChar d ok s).later = s.later := by
  unfold receiveChar; split <;> rfl

@[simp] theorem receiveChar_inputs (d : Byte) (ok : Bool) (s : State) : (receiveChar d ok s).inputs = s.inputs := by
  unfold receiveChar; split <;> rfl

end receiveChar

section advanceRx

@[simp] theorem advanceRx_ie (t : Nat) (s : State) : (advanceRx t s).ie = s.ie := by
  unfold advanceRx; split; · rfl
  split; · rfl
  split <;> simp

@[simp] theorem advanceRx_busy (t : Nat) (s : State) : (advanceRx t s).busy = s.busy := by
  unfold advanceRx; split; · rfl
  split; · rfl
  split <;> simp

@[simp] theorem advanceRx_done (t : Nat) (s : State) : (advanceRx t s).done = s.done := by
  unfold advanceRx; split; · rfl
  split; · rfl
  split <;> simp

@[simp] theorem advanceRx_opened (t : Nat) (s : State) : (advanceRx t s).opened = s.opened := by
  unfold advanceRx; split; · rfl
  split; · rfl
  split <;> simp

@[simp] theorem advanceRx_wbusy (t : Nat) (s : State) : (advanceRx t s).wbusy = s.wbusy := by
  unfold advanceRx; split; · rfl
  split; · rfl
  split <;> simp

@[simp] theorem advanceRx_code (t : Nat) (s : State) : (advanceRx t s).code = s.code := by
  unfold advanceRx; split; · rfl
  split; · rfl
  split <;> simp

@[simp] theorem advanceRx_cmd (t : Nat) (s : State) : (advanceRx t s).cmd = s.cmd := by
  unfold advanceRx; split; · rfl
  split; · rfl
  split <;> simp

@[simp] theorem advanceRx_arg (t : Nat) (s : State) : (advanceRx t s).arg = s.arg := by
  unfold advanceRx; split; · rfl
  split; · rfl
  split <;> simp

@[simp] theorem advanceRx_crc (t : Nat) (s : State) : (advanceRx t s).crc = s.crc := by
  unfold advanceRx; split; · rfl
  split; · rfl
  split <;> simp

@[simp] theorem advanceRx_timeout (t : Nat) (s : State) : (advanceRx t s).timeout = s.timeout := by
  unfold advanceRx; split; · rfl
  split; · rfl
  split <;> simp

@[simp] theorem advanceRx_silence (t : Nat) (s : State) : (advanceRx t s).silence = s.silence := by
  unfold advanceRx; split; · rfl
  split; · rfl
  split <;> simp

@[simp] theorem advanceRx_raddr (t : Nat) (s : State) : (advanceRx t s).raddr = s.raddr := by
  unfold advanceRx; split; · rfl
  split; · rfl
  split <;> simp

@[simp] theorem advanceRx_rfunc (t : Nat) (s : State) : (advanceRx t s).rfunc = s.rfunc := by
  unfold advanceRx; split; · rfl
  split; · rfl
  split <;> simp

@[simp] theorem advanceRx_txlen (t : Nat) (s : State) : (advanceRx t s).txlen = s.txlen := by
  unfold advanceRx; split; · rfl
  split; · rfl
  split <;> simp

@[simp] theorem advanceRx_result (t : Nat) (s : State) : (advanceRx t s).result = s.result := by
  unfold advanceRx; split; · rfl
  split; · rfl
  split <;> simp

@[simp] theorem advanceRx_rplen (t : Nat) (s : State) : (advanceRx t s).rplen = s.rplen := by
  unfold advanceRx; split; · rfl
  split; · rfl
  split <;> simp

@[simp] theorem advanceRx_op (t : Nat) (s : State) : (advanceRx t s).op = s.op := by
  unfold advanceRx; split; · rfl
  split; · rfl
  split <;> simp

@[simp] theorem advanceRx_resp (t : Nat) (s : State) : (advanceRx t s).resp = s.resp := by
  unfold advanceRx; split; · rfl
  split; · rfl
  split <;> simp

@[simp] theorem advanceRx_k (t : Nat) (s : State) : (advanceRx t s).k = s.k := by
  unfold advanceRx; split; · rfl
  split; · rfl
  split <;> simp

@[simp] theorem advanceRx_txShift (t : Nat) (s : State) : (advanceRx t s).txShift = s.txShift := by
  unfold advanceRx; split; · rfl
  split; · rfl
  split <;> simp

@[simp] theorem advanceRx_rstN (t : Nat) (s : State) : (advanceRx t s).rstN = s.rstN := by
  unfold advanceRx; split; · rfl
  split; · rfl
  split <;> simp

@[simp] theorem advanceRx_phyOk (t : Nat) (s : State) : (advanceRx t s).phyOk = s.phyOk := by
  unfold advanceRx; split; · rfl
  split; · rfl
  split <;> simp

@[simp] theorem advanceRx_prdata (t : Nat) (s : State) : (advanceRx t s).prdata = s.prdata := by
  unfold advanceRx; split; · rfl
  split; · rfl
  split <;> simp

@[simp] theorem advanceRx_draws (t : Nat) (s : State) : (advanceRx t s).draws = s.draws := by
  unfold advanceRx; split; · rfl
  split; · rfl
  split <;> simp

@[simp] theorem advanceRx_epoch (t : Nat) (s : State) : (advanceRx t s).epoch = s.epoch := by
  unfold advanceRx; split; · rfl
  split; · rfl
  split <;> simp

@[simp] theorem advanceRx_later (t : Nat) (s : State) : (advanceRx t s).later = s.later := by
  unfold advanceRx; split; · rfl
  split; · rfl
  split <;> simp

@[simp] theorem advanceRx_inputs (t : Nat) (s : State) : (advanceRx t s).inputs = s.inputs := by
  unfold advanceRx; split; · rfl
  split; · rfl
  split <;> simp

end advanceRx

section endTx

@[simp] theorem endTx_ie (s : State) : (endTx s).ie = s.ie := by
  unfold endTx; split <;> rfl

@[simp] theorem endTx_opened (s : State) : (endTx s).opened = s.opened := by
  unfold endTx; split <;> rfl

@[simp] theorem endTx_wbusy (s : State) : (endTx s).wbusy = s.wbusy := by
  unfold endTx; split <;> rfl

@[simp] theorem endTx_rxerr (s : State) : (endTx s).rxerr = s.rxerr := by
  unfold endTx; split <;> rfl

@[simp] theorem endTx_late (s : State) : (endTx s).late = s.late := by
  unfold endTx; split <;> rfl

@[simp] theorem endTx_cmd (s : State) : (endTx s).cmd = s.cmd := by
  unfold endTx; split <;> rfl

@[simp] theorem endTx_arg (s : State) : (endTx s).arg = s.arg := by
  unfold endTx; split <;> rfl

@[simp] theorem endTx_crc (s : State) : (endTx s).crc = s.crc := by
  unfold endTx; split <;> rfl

@[simp] theorem endTx_timeout (s : State) : (endTx s).timeout = s.timeout := by
  unfold endTx; split <;> rfl

@[simp] theorem endTx_silence (s : State) : (endTx s).silence = s.silence := by
  unfold endTx; split <;> rfl

@[simp] theorem endTx_raddr (s : State) : (endTx s).raddr = s.raddr := by
  unfold endTx; split <;> rfl

@[simp] theorem endTx_rfunc (s : State) : (endTx s).rfunc = s.rfunc := by
  unfold endTx; split <;> rfl

@[simp] theorem endTx_txlen (s : State) : (endTx s).txlen = s.txlen := by
  unfold endTx; split <;> rfl

@[simp] theorem endTx_rxlen (s : State) : (endTx s).rxlen = s.rxlen := by
  unfold endTx; split <;> rfl

@[simp] theorem endTx_result (s : State) : (endTx s).result = s.result := by
  unfold endTx; split <;> rfl

@[simp] theorem endTx_rplen (s : State) : (endTx s).rplen = s.rplen := by
  unfold endTx; split <;> rfl

@[simp] theorem endTx_mem (s : State) : (endTx s).mem = s.mem := by
  unfold endTx; split <;> rfl

@[simp] theorem endTx_ovf (s : State) : (endTx s).ovf = s.ovf := by
  unfold endTx; split <;> rfl

@[simp] theorem endTx_lineChar (s : State) : (endTx s).lineChar = s.lineChar := by
  unfold endTx; split <;> rfl

@[simp] theorem endTx_rstN (s : State) : (endTx s).rstN = s.rstN := by
  unfold endTx; split <;> rfl

@[simp] theorem endTx_phyOk (s : State) : (endTx s).phyOk = s.phyOk := by
  unfold endTx; split <;> rfl

@[simp] theorem endTx_prdata (s : State) : (endTx s).prdata = s.prdata := by
  unfold endTx; split <;> rfl

@[simp] theorem endTx_draws (s : State) : (endTx s).draws = s.draws := by
  unfold endTx; split <;> rfl

@[simp] theorem endTx_epoch (s : State) : (endTx s).epoch = s.epoch := by
  unfold endTx; split <;> rfl

@[simp] theorem endTx_later (s : State) : (endTx s).later = s.later := by
  unfold endTx; split <;> rfl

@[simp] theorem endTx_inputs (s : State) : (endTx s).inputs = s.inputs := by
  unfold endTx; split <;> rfl

@[simp] theorem endTx_idle (s : State) : (endTx s).idle = s.idle := by
  unfold endTx; split <;> rfl

@[simp] theorem endTx_k (s : State) : (endTx s).k = s.k := by
  unfold endTx; split <;> rfl

end endTx

section endChar

@[simp] theorem endChar_ie (s : State) : (endChar s).ie = s.ie := by
  unfold endChar; split <;> simp

@[simp] theorem endChar_opened (s : State) : (endChar s).opened = s.opened := by
  unfold endChar; split <;> simp

@[simp] theorem endChar_wbusy (s : State) : (endChar s).wbusy = s.wbusy := by
  unfold endChar; split <;> simp

@[simp] theorem endChar_rxerr (s : State) : (endChar s).rxerr = s.rxerr := by
  unfold endChar; split <;> simp

@[simp] theorem endChar_late (s : State) : (endChar s).late = s.late := by
  unfold endChar; split <;> simp

@[simp] theorem endChar_cmd (s : State) : (endChar s).cmd = s.cmd := by
  unfold endChar; split <;> simp

@[simp] theorem endChar_arg (s : State) : (endChar s).arg = s.arg := by
  unfold endChar; split <;> simp

@[simp] theorem endChar_crc (s : State) : (endChar s).crc = s.crc := by
  unfold endChar; split <;> simp

@[simp] theorem endChar_timeout (s : State) : (endChar s).timeout = s.timeout := by
  unfold endChar; split <;> simp

@[simp] theorem endChar_silence (s : State) : (endChar s).silence = s.silence := by
  unfold endChar; split <;> simp

@[simp] theorem endChar_raddr (s : State) : (endChar s).raddr = s.raddr := by
  unfold endChar; split <;> simp

@[simp] theorem endChar_rfunc (s : State) : (endChar s).rfunc = s.rfunc := by
  unfold endChar; split <;> simp

@[simp] theorem endChar_txlen (s : State) : (endChar s).txlen = s.txlen := by
  unfold endChar; split <;> simp

@[simp] theorem endChar_rxlen (s : State) : (endChar s).rxlen = s.rxlen := by
  unfold endChar; split <;> simp

@[simp] theorem endChar_result (s : State) : (endChar s).result = s.result := by
  unfold endChar; split <;> simp

@[simp] theorem endChar_rplen (s : State) : (endChar s).rplen = s.rplen := by
  unfold endChar; split <;> simp

@[simp] theorem endChar_mem (s : State) : (endChar s).mem = s.mem := by
  unfold endChar; split <;> simp

@[simp] theorem endChar_ovf (s : State) : (endChar s).ovf = s.ovf := by
  unfold endChar; split <;> simp

@[simp] theorem endChar_lineChar (s : State) : (endChar s).lineChar = s.lineChar := by
  unfold endChar; split <;> simp

@[simp] theorem endChar_rstN (s : State) : (endChar s).rstN = s.rstN := by
  unfold endChar; split <;> simp

@[simp] theorem endChar_phyOk (s : State) : (endChar s).phyOk = s.phyOk := by
  unfold endChar; split <;> simp

@[simp] theorem endChar_prdata (s : State) : (endChar s).prdata = s.prdata := by
  unfold endChar; split <;> simp

@[simp] theorem endChar_draws (s : State) : (endChar s).draws = s.draws := by
  unfold endChar; split <;> simp

@[simp] theorem endChar_epoch (s : State) : (endChar s).epoch = s.epoch := by
  unfold endChar; split <;> simp

@[simp] theorem endChar_later (s : State) : (endChar s).later = s.later := by
  unfold endChar; split <;> simp

@[simp] theorem endChar_inputs (s : State) : (endChar s).inputs = s.inputs := by
  unfold endChar; split <;> simp

end endChar

section advanceTx

@[simp] theorem advanceTx_ie (t : Nat) (s : State) : (advanceTx t s).ie = s.ie := by
  unfold advanceTx; split; · rfl
  split <;> simp

@[simp] theorem advanceTx_opened (t : Nat) (s : State) : (advanceTx t s).opened = s.opened := by
  unfold advanceTx; split; · rfl
  split <;> simp

@[simp] theorem advanceTx_wbusy (t : Nat) (s : State) : (advanceTx t s).wbusy = s.wbusy := by
  unfold advanceTx; split; · rfl
  split <;> simp

@[simp] theorem advanceTx_rxerr (t : Nat) (s : State) : (advanceTx t s).rxerr = s.rxerr := by
  unfold advanceTx; split; · rfl
  split <;> simp

@[simp] theorem advanceTx_late (t : Nat) (s : State) : (advanceTx t s).late = s.late := by
  unfold advanceTx; split; · rfl
  split <;> simp

@[simp] theorem advanceTx_cmd (t : Nat) (s : State) : (advanceTx t s).cmd = s.cmd := by
  unfold advanceTx; split; · rfl
  split <;> simp

@[simp] theorem advanceTx_arg (t : Nat) (s : State) : (advanceTx t s).arg = s.arg := by
  unfold advanceTx; split; · rfl
  split <;> simp

@[simp] theorem advanceTx_crc (t : Nat) (s : State) : (advanceTx t s).crc = s.crc := by
  unfold advanceTx; split; · rfl
  split <;> simp

@[simp] theorem advanceTx_timeout (t : Nat) (s : State) : (advanceTx t s).timeout = s.timeout := by
  unfold advanceTx; split; · rfl
  split <;> simp

@[simp] theorem advanceTx_silence (t : Nat) (s : State) : (advanceTx t s).silence = s.silence := by
  unfold advanceTx; split; · rfl
  split <;> simp

@[simp] theorem advanceTx_raddr (t : Nat) (s : State) : (advanceTx t s).raddr = s.raddr := by
  unfold advanceTx; split; · rfl
  split <;> simp

@[simp] theorem advanceTx_rfunc (t : Nat) (s : State) : (advanceTx t s).rfunc = s.rfunc := by
  unfold advanceTx; split; · rfl
  split <;> simp

@[simp] theorem advanceTx_txlen (t : Nat) (s : State) : (advanceTx t s).txlen = s.txlen := by
  unfold advanceTx; split; · rfl
  split <;> simp

@[simp] theorem advanceTx_rxlen (t : Nat) (s : State) : (advanceTx t s).rxlen = s.rxlen := by
  unfold advanceTx; split; · rfl
  split <;> simp

@[simp] theorem advanceTx_result (t : Nat) (s : State) : (advanceTx t s).result = s.result := by
  unfold advanceTx; split; · rfl
  split <;> simp

@[simp] theorem advanceTx_rplen (t : Nat) (s : State) : (advanceTx t s).rplen = s.rplen := by
  unfold advanceTx; split; · rfl
  split <;> simp

@[simp] theorem advanceTx_mem (t : Nat) (s : State) : (advanceTx t s).mem = s.mem := by
  unfold advanceTx; split; · rfl
  split <;> simp

@[simp] theorem advanceTx_ovf (t : Nat) (s : State) : (advanceTx t s).ovf = s.ovf := by
  unfold advanceTx; split; · rfl
  split <;> simp

@[simp] theorem advanceTx_lineChar (t : Nat) (s : State) : (advanceTx t s).lineChar = s.lineChar := by
  unfold advanceTx; split; · rfl
  split <;> simp

@[simp] theorem advanceTx_rstN (t : Nat) (s : State) : (advanceTx t s).rstN = s.rstN := by
  unfold advanceTx; split; · rfl
  split <;> simp

@[simp] theorem advanceTx_phyOk (t : Nat) (s : State) : (advanceTx t s).phyOk = s.phyOk := by
  unfold advanceTx; split; · rfl
  split <;> simp

@[simp] theorem advanceTx_prdata (t : Nat) (s : State) : (advanceTx t s).prdata = s.prdata := by
  unfold advanceTx; split; · rfl
  split <;> simp

@[simp] theorem advanceTx_draws (t : Nat) (s : State) : (advanceTx t s).draws = s.draws := by
  unfold advanceTx; split; · rfl
  split <;> simp

@[simp] theorem advanceTx_epoch (t : Nat) (s : State) : (advanceTx t s).epoch = s.epoch := by
  unfold advanceTx; split; · rfl
  split <;> simp

@[simp] theorem advanceTx_later (t : Nat) (s : State) : (advanceTx t s).later = s.later := by
  unfold advanceTx; split; · rfl
  split <;> simp

@[simp] theorem advanceTx_inputs (t : Nat) (s : State) : (advanceTx t s).inputs = s.inputs := by
  unfold advanceTx; split; · rfl
  split <;> simp

end advanceTx

section advance

@[simp] theorem advance_ie (t : Nat) (s : State) : (advance t s).ie = s.ie := by
  simp [advance]

@[simp] theorem advance_opened (t : Nat) (s : State) : (advance t s).opened = s.opened := by
  simp [advance]

@[simp] theorem advance_wbusy (t : Nat) (s : State) : (advance t s).wbusy = s.wbusy := by
  simp [advance]

@[simp] theorem advance_cmd (t : Nat) (s : State) : (advance t s).cmd = s.cmd := by
  simp [advance]

@[simp] theorem advance_arg (t : Nat) (s : State) : (advance t s).arg = s.arg := by
  simp [advance]

@[simp] theorem advance_crc (t : Nat) (s : State) : (advance t s).crc = s.crc := by
  simp [advance]

@[simp] theorem advance_timeout (t : Nat) (s : State) : (advance t s).timeout = s.timeout := by
  simp [advance]

@[simp] theorem advance_silence (t : Nat) (s : State) : (advance t s).silence = s.silence := by
  simp [advance]

@[simp] theorem advance_raddr (t : Nat) (s : State) : (advance t s).raddr = s.raddr := by
  simp [advance]

@[simp] theorem advance_rfunc (t : Nat) (s : State) : (advance t s).rfunc = s.rfunc := by
  simp [advance]

@[simp] theorem advance_txlen (t : Nat) (s : State) : (advance t s).txlen = s.txlen := by
  simp [advance]

@[simp] theorem advance_result (t : Nat) (s : State) : (advance t s).result = s.result := by
  simp [advance]

@[simp] theorem advance_rplen (t : Nat) (s : State) : (advance t s).rplen = s.rplen := by
  simp [advance]

@[simp] theorem advance_rstN (t : Nat) (s : State) : (advance t s).rstN = s.rstN := by
  simp [advance]

@[simp] theorem advance_phyOk (t : Nat) (s : State) : (advance t s).phyOk = s.phyOk := by
  simp [advance]

@[simp] theorem advance_prdata (t : Nat) (s : State) : (advance t s).prdata = s.prdata := by
  simp [advance]

@[simp] theorem advance_draws (t : Nat) (s : State) : (advance t s).draws = s.draws := by
  simp [advance]

@[simp] theorem advance_epoch (t : Nat) (s : State) : (advance t s).epoch = s.epoch := by
  simp [advance]

@[simp] theorem advance_later (t : Nat) (s : State) : (advance t s).later = s.later := by
  simp [advance]

@[simp] theorem advance_inputs (t : Nat) (s : State) : (advance t s).inputs = s.inputs := by
  simp [advance]

end advance

section passTime

@[simp] theorem passTime_ie (t : Nat) (s : State) : (passTime t s).ie = s.ie := by
  simp [passTime]

@[simp] theorem passTime_opened (t : Nat) (s : State) : (passTime t s).opened = s.opened := by
  simp [passTime]

@[simp] theorem passTime_wbusy (t : Nat) (s : State) : (passTime t s).wbusy = s.wbusy := by
  simp [passTime]

@[simp] theorem passTime_cmd (t : Nat) (s : State) : (passTime t s).cmd = s.cmd := by
  simp [passTime]

@[simp] theorem passTime_arg (t : Nat) (s : State) : (passTime t s).arg = s.arg := by
  simp [passTime]

@[simp] theorem passTime_crc (t : Nat) (s : State) : (passTime t s).crc = s.crc := by
  simp [passTime]

@[simp] theorem passTime_timeout (t : Nat) (s : State) : (passTime t s).timeout = s.timeout := by
  simp [passTime]

@[simp] theorem passTime_silence (t : Nat) (s : State) : (passTime t s).silence = s.silence := by
  simp [passTime]

@[simp] theorem passTime_raddr (t : Nat) (s : State) : (passTime t s).raddr = s.raddr := by
  simp [passTime]

@[simp] theorem passTime_rfunc (t : Nat) (s : State) : (passTime t s).rfunc = s.rfunc := by
  simp [passTime]

@[simp] theorem passTime_txlen (t : Nat) (s : State) : (passTime t s).txlen = s.txlen := by
  simp [passTime]

@[simp] theorem passTime_result (t : Nat) (s : State) : (passTime t s).result = s.result := by
  simp [passTime]

@[simp] theorem passTime_rplen (t : Nat) (s : State) : (passTime t s).rplen = s.rplen := by
  simp [passTime]

@[simp] theorem passTime_rstN (t : Nat) (s : State) : (passTime t s).rstN = s.rstN := by
  simp [passTime]

@[simp] theorem passTime_phyOk (t : Nat) (s : State) : (passTime t s).phyOk = s.phyOk := by
  simp [passTime]

@[simp] theorem passTime_prdata (t : Nat) (s : State) : (passTime t s).prdata = s.prdata := by
  simp [passTime]

@[simp] theorem passTime_draws (t : Nat) (s : State) : (passTime t s).draws = s.draws := by
  simp [passTime]

@[simp] theorem passTime_epoch (t : Nat) (s : State) : (passTime t s).epoch = s.epoch := by
  simp [passTime]

@[simp] theorem passTime_later (t : Nat) (s : State) : (passTime t s).later = s.later := by
  simp [passTime]

end passTime

section startChar

@[simp] theorem startChar_ie (d : Byte) (p q : Bool) (s : State) : (startChar d p q s).ie = s.ie := by
  unfold startChar; split <;> rfl

@[simp] theorem startChar_busy (d : Byte) (p q : Bool) (s : State) : (startChar d p q s).busy = s.busy := by
  unfold startChar; split <;> rfl

@[simp] theorem startChar_done (d : Byte) (p q : Bool) (s : State) : (startChar d p q s).done = s.done := by
  unfold startChar; split <;> rfl

@[simp] theorem startChar_opened (d : Byte) (p q : Bool) (s : State) : (startChar d p q s).opened = s.opened := by
  unfold startChar; split <;> rfl

@[simp] theorem startChar_wbusy (d : Byte) (p q : Bool) (s : State) : (startChar d p q s).wbusy = s.wbusy := by
  unfold startChar; split <;> rfl

@[simp] theorem startChar_rxerr (d : Byte) (p q : Bool) (s : State) : (startChar d p q s).rxerr = s.rxerr := by
  unfold startChar; split <;> rfl

@[simp] theorem startChar_late (d : Byte) (p q : Bool) (s : State) : (startChar d p q s).late = s.late := by
  unfold startChar; split <;> rfl

@[simp] theorem startChar_code (d : Byte) (p q : Bool) (s : State) : (startChar d p q s).code = s.code := by
  unfold startChar; split <;> rfl

@[simp] theorem startChar_phase (d : Byte) (p q : Bool) (s : State) : (startChar d p q s).phase = s.phase := by
  unfold startChar; split <;> rfl

@[simp] theorem startChar_cmd (d : Byte) (p q : Bool) (s : State) : (startChar d p q s).cmd = s.cmd := by
  unfold startChar; split <;> rfl

@[simp] theorem startChar_arg (d : Byte) (p q : Bool) (s : State) : (startChar d p q s).arg = s.arg := by
  unfold startChar; split <;> rfl

@[simp] theorem startChar_crc (d : Byte) (p q : Bool) (s : State) : (startChar d p q s).crc = s.crc := by
  unfold startChar; split <;> rfl

@[simp] theorem startChar_timeout (d : Byte) (p q : Bool) (s : State) : (startChar d p q s).timeout = s.timeout := by
  unfold startChar; split <;> rfl

@[simp] theorem startChar_silence (d : Byte) (p q : Bool) (s : State) : (startChar d p q s).silence = s.silence := by
  unfold startChar; split <;> rfl

@[simp] theorem startChar_raddr (d : Byte) (p q : Bool) (s : State) : (startChar d p q s).raddr = s.raddr := by
  unfold startChar; split <;> rfl

@[simp] theorem startChar_rfunc (d : Byte) (p q : Bool) (s : State) : (startChar d p q s).rfunc = s.rfunc := by
  unfold startChar; split <;> rfl

@[simp] theorem startChar_txlen (d : Byte) (p q : Bool) (s : State) : (startChar d p q s).txlen = s.txlen := by
  unfold startChar; split <;> rfl

@[simp] theorem startChar_rxlen (d : Byte) (p q : Bool) (s : State) : (startChar d p q s).rxlen = s.rxlen := by
  unfold startChar; split <;> rfl

@[simp] theorem startChar_result (d : Byte) (p q : Bool) (s : State) : (startChar d p q s).result = s.result := by
  unfold startChar; split <;> rfl

@[simp] theorem startChar_rplen (d : Byte) (p q : Bool) (s : State) : (startChar d p q s).rplen = s.rplen := by
  unfold startChar; split <;> rfl

@[simp] theorem startChar_mem (d : Byte) (p q : Bool) (s : State) : (startChar d p q s).mem = s.mem := by
  unfold startChar; split <;> rfl

@[simp] theorem startChar_op (d : Byte) (p q : Bool) (s : State) : (startChar d p q s).op = s.op := by
  unfold startChar; split <;> rfl

@[simp] theorem startChar_idle (d : Byte) (p q : Bool) (s : State) : (startChar d p q s).idle = s.idle := by
  unfold startChar; split <;> rfl

@[simp] theorem startChar_resp (d : Byte) (p q : Bool) (s : State) : (startChar d p q s).resp = s.resp := by
  unfold startChar; split <;> rfl

@[simp] theorem startChar_ovf (d : Byte) (p q : Bool) (s : State) : (startChar d p q s).ovf = s.ovf := by
  unfold startChar; split <;> rfl

@[simp] theorem startChar_k (d : Byte) (p q : Bool) (s : State) : (startChar d p q s).k = s.k := by
  unfold startChar; split <;> rfl

@[simp] theorem startChar_txShift (d : Byte) (p q : Bool) (s : State) : (startChar d p q s).txShift = s.txShift := by
  unfold startChar; split <;> rfl

@[simp] theorem startChar_rstN (d : Byte) (p q : Bool) (s : State) : (startChar d p q s).rstN = s.rstN := by
  unfold startChar; split <;> rfl

@[simp] theorem startChar_phyOk (d : Byte) (p q : Bool) (s : State) : (startChar d p q s).phyOk = s.phyOk := by
  unfold startChar; split <;> rfl

@[simp] theorem startChar_prdata (d : Byte) (p q : Bool) (s : State) : (startChar d p q s).prdata = s.prdata := by
  unfold startChar; split <;> rfl

@[simp] theorem startChar_draws (d : Byte) (p q : Bool) (s : State) : (startChar d p q s).draws = s.draws := by
  unfold startChar; split <;> rfl

@[simp] theorem startChar_epoch (d : Byte) (p q : Bool) (s : State) : (startChar d p q s).epoch = s.epoch := by
  unfold startChar; split <;> rfl

@[simp] theorem startChar_later (d : Byte) (p q : Bool) (s : State) : (startChar d p q s).later = s.later := by
  unfold startChar; split <;> rfl

@[simp] theorem startChar_inputs (d : Byte) (p q : Bool) (s : State) : (startChar d p q s).inputs = s.inputs := by
  unfold startChar; split <;> rfl

end startChar

end Sys2Proof.Machine
end

