-- ==== Sys2Proof/Laws/Memory.lean ====
section
/-! SUPPORT. The buffers' memory: what a read sees after a write, that every write keeps the canonical form, and
the sequences of TXBUF and RXBUF bytes. -/

namespace Sys2Proof.Machine

/-- A cell below every cell of the list. -/
def Memory.below (a : Nat) (m : Memory) : Prop := ∀ c ∈ m, a < c.1

theorem Memory.wf_cons (c : Host.Cell) (m : Memory) :
    Memory.wf (c :: m) = true ↔ Memory.below c.1 m ∧ Memory.wf m = true := by
  induction m generalizing c with
  | nil => simp [Memory.wf, Memory.below]
  | cons d m ih =>
    constructor
    · intro h
      simp only [Memory.wf, Bool.and_eq_true, decide_eq_true_eq] at h
      refine ⟨?_, h.2⟩
      intro e he
      rcases List.mem_cons.1 he with rfl | he
      · exact h.1
      · exact Nat.lt_trans h.1 (((ih d).1 h.2).1 e he)
    · rintro ⟨hb, hw⟩
      simp only [Memory.wf, Bool.and_eq_true, decide_eq_true_eq]
      exact ⟨hb d (List.mem_cons_self ..), hw⟩

/-- Every cell after a write was there before, or is the one written. -/
theorem Memory.mem_set {m : Memory} {a : Nat} {v : Byte} {c : Host.Cell} (h : c ∈ m.set a v) :
    c = (a, v) ∨ c ∈ m := by
  induction m with
  | nil => simpa [Memory.set] using h
  | cons d m ih =>
    obtain ⟨b, w⟩ := d
    simp only [Memory.set] at h
    split at h
    · simpa using h
    · split at h
      · rcases List.mem_cons.1 h with h | h
        · exact .inl h
        · exact .inr (List.mem_cons_of_mem _ h)
      · rcases List.mem_cons.1 h with h | h
        · exact .inr (h ▸ List.mem_cons_self ..)
        · rcases ih h with h | h
          · exact .inl h
          · exact .inr (List.mem_cons_of_mem _ h)

/-- A write keeps the canonical form. -/
theorem Memory.set_wf {m : Memory} (h : m.wf = true) (a : Nat) (v : Byte) : (m.set a v).wf = true := by
  induction m with
  | nil => rfl
  | cons d m ih =>
    obtain ⟨b, w⟩ := d
    obtain ⟨hb, hw⟩ := (Memory.wf_cons _ _).1 h
    simp only [Memory.set]
    split
    · next hlt =>
      refine (Memory.wf_cons _ _).2 ⟨fun e he => ?_, h⟩
      rcases List.mem_cons.1 he with rfl | he
      · exact hlt
      · exact Nat.lt_trans hlt (hb e he)
    · split
      · next heq => exact (Memory.wf_cons _ _).2 ⟨heq ▸ hb, hw⟩
      · refine (Memory.wf_cons _ _).2 ⟨fun e he => ?_, ih hw⟩
        rcases Memory.mem_set he with rfl | he
        · show b < a
          omega
        · exact hb e he

/-- Read after write. -/
@[simp] theorem Memory.get_set (m : Memory) (a c : Nat) (v : Byte) :
    (m.set a v).get c = if c = a then some v else m.get c := by
  induction m with
  | nil => simp [Memory.set, Memory.get]
  | cons d m ih =>
    obtain ⟨b, w⟩ := d
    simp only [Memory.set]
    split
    · simp [Memory.get]
    · split
      · next h1 h2 => subst h2; simp only [Memory.get]; split <;> simp_all
      · simp only [Memory.get, ih]
        split
        · next h => subst h; simp; omega
        · rfl

/-- Writing TXBUF bytes keeps the canonical form. -/
theorem Memory.setTx_wf (bs : List Byte) : ∀ {m : Memory} (_ : m.wf = true) (i : Nat), (m.setTx i bs).wf = true := by
  induction bs with
  | nil => intro m h _; exact h
  | cons b bs ih => intro m h i; exact ih (Memory.set_wf h _ _) (i + 1)

/-- A cell after TXBUF writes was there before, or is one of the written entries. -/
theorem Memory.mem_setTx (bs : List Byte) : ∀ {m : Memory} {i : Nat} {c : Host.Cell}, c ∈ m.setTx i bs →
    c ∈ m ∨ ∃ j, j < bs.length ∧ c.1 = txOffset (i + j) := by
  induction bs with
  | nil => intro m i c h; exact .inl h
  | cons b bs ih =>
    intro m i c h
    rcases ih h with h | ⟨j, hj, hc⟩
    · rcases Memory.mem_set h with rfl | h
      · exact .inr ⟨0, by simp, rfl⟩
      · exact .inl h
    · exact .inr ⟨j + 1, by simpa using hj, by rw [hc]; congr 1; omega⟩

/-- What an offset that is no written TXBUF entry holds after TXBUF writes. -/
theorem Memory.get_setTx_other (bs : List Byte) : ∀ (m : Memory) (i a : Nat),
    (∀ j, j < bs.length → a ≠ txOffset (i + j)) → (m.setTx i bs).get a = m.get a := by
  induction bs with
  | nil => intro m i a _; rfl
  | cons b bs ih =>
    intro m i a h
    have h0 : a ≠ txOffset i := h 0 (by simp)
    rw [Memory.setTx, ih _ _ _ fun j hj => ?_, Memory.get_set, if_neg h0]
    have := h (j + 1) (by simpa using hj)
    rwa [show i + (j + 1) = i + 1 + j by omega] at this

/-- What a written TXBUF entry holds. -/
theorem Memory.get_setTx (bs : List Byte) : ∀ (m : Memory) (i j : Nat) (h : j < bs.length),
    (m.setTx i bs).get (txOffset (i + j)) = some bs[j] := by
  induction bs with
  | nil => intro m i j h; simp at h
  | cons b bs ih =>
    intro m i j h
    cases j with
    | zero =>
      rw [Memory.setTx, Memory.get_setTx_other]
      · simp
      · intro j _
        simp only [txOffset]
        omega
    | succ j =>
      rw [Memory.setTx, show i + (j + 1) = i + 1 + j by omega]
      simpa using ih (m.set (txOffset i) b) (i + 1) j (by simpa using h)

/-! Reading bytes of a state. -/

theorem byteAt_congr {s t : State} (hm : s.mem = t.mem) (he : s.epoch = t.epoch) (a : Nat) :
    byteAt s a = byteAt t a := by simp [byteAt, hm, he]

theorem txByte_congr {s t : State} (hm : s.mem = t.mem) (he : s.epoch = t.epoch) (i : Nat) :
    txByte s i = txByte t i := byteAt_congr hm he _

theorem rxBytes_congr {s t : State} (hm : s.mem = t.mem) (he : s.epoch = t.epoch) (i n : Nat) :
    rxBytes s i n = rxBytes t i n := by
  simp only [rxBytes, rxByte, byteAt_congr hm he]

@[simp] theorem txBytes_length (s : State) (i n : Nat) : (txBytes s i n).length = n := by simp [txBytes]

@[simp] theorem rxBytes_length (s : State) (i n : Nat) : (rxBytes s i n).length = n := by simp [rxBytes]

@[simp] theorem txBytes_getElem (s : State) (i n j : Nat) (h : j < (txBytes s i n).length) :
    (txBytes s i n)[j] = txByte s (i + j) := by simp [txBytes]

@[simp] theorem rxBytes_getElem (s : State) (i n j : Nat) (h : j < (rxBytes s i n).length) :
    (rxBytes s i n)[j] = rxByte s (i + j) := by simp [rxBytes]

end Sys2Proof.Machine
end

