-- ==== Sys2Proof/Laws/Step.lean ====
section
/-! SUPPORT. What a step can do, said once: every command answers a next state, and the cases of the engine's move
and of a step. -/

namespace Sys2Proof.Machine

/-- Emitting a frame completes with OK: what it writes, and nothing else. -/
theorem emit_eq (a f : Byte) (p : Nat) (s : State) :
    emit a f p s = .next (complete .ok
      { s with mem := emitMem a f p s, txlen := BitVec.ofNat 9 (p + 4), raddr := a, rfunc := f }) := rfl

/-- `u` is `s` but for what a command may write before it completes: CRC, the buffers, TXLEN, REQ, RESULT, RPLEN,
OPEN, `idle`, and the receiver's hold on a character. -/
def WroteOnly (s u : State) : Prop :=
  u = { s with
    crc := u.crc, mem := u.mem, txlen := u.txlen, raddr := u.raddr, rfunc := u.rfunc, result := u.result,
    rplen := u.rplen, opened := u.opened, idle := u.idle, lineChar := u.lineChar }

theorem decodeReceived_wroteOnly (s : State) : WroteOnly s (decodeReceived s).1 := by
  unfold decodeReceived
  split <;> exact rfl

/-- How a command ends: it completes with a code, or it is XCHG or SEND starting its wait for silence. -/
theorem exec_cases (i : Instr) (s : State) :
    (∃ (c : ResultCode) (u : State), exec i s = .next (complete c u) ∧ WroteOnly s u) ∨
    (∃ o : Bool, exec i s = .next (startExchange { s with ovf := o }) ∧ s.opened = true ∧
      txlenInvalid s = false ∧ ((∃ a b, i = .xchg a b ∧ o = false) ∨ (∃ a b, i = .send a b ∧ o = s.ovf))) := by
  have fin : ∀ (c : ResultCode) (u : State), WroteOnly s u →
      ∃ (c' : ResultCode) (v : State), finish c u = .next (complete c' v) ∧ WroteOnly s v :=
    fun c u h => ⟨c, u, rfl, h⟩
  cases i with
  | crcInit => exact .inl (fin _ _ rfl)
  | crcByte => exact .inl (fin _ _ rfl)
  | crcTx =>
    simp only [exec, execCrcTx]
    split <;> exact .inl (fin _ _ rfl)
  | crcRx =>
    simp only [exec, execCrcRx]
    split <;> exact .inl (fin _ _ rfl)
  | encRaw =>
    simp only [exec, execEncRaw]
    split
    · exact .inl (fin _ _ rfl)
    · split <;> exact .inl (fin _ _ rfl)
  | encRhr =>
    simp only [exec, execEncRhr]
    split <;> exact .inl (fin _ _ rfl)
  | encWmr =>
    simp only [exec, execEncWmr]
    split
    · exact .inl (fin _ _ rfl)
    · split <;> exact .inl (fin _ _ rfl)
  | encUnl =>
    simp only [exec, execEncUnl]
    split <;> exact .inl (fin _ _ rfl)
  | dec => exact .inl (fin _ _ (decodeReceived_wroteOnly s))
  | chk =>
    simp only [exec, execChk]
    split
    · next u h => exact .inl (fin _ _ (by simpa [h] using decodeReceived_wroteOnly s))
    · next u c _ h => exact .inl (fin _ _ (by simpa [h] using decodeReceived_wroteOnly s))
  | openPort =>
    simp only [exec, execOpenPort]
    split
    · exact .inl (fin _ _ rfl)
    · split <;> exact .inl (fin _ _ rfl)
  | closePort => exact .inl (fin _ _ rfl)
  | xchg a b =>
    simp only [exec, execXchg]
    split
    · exact .inl (fin _ _ rfl)
    · next ho =>
      split
      · exact .inl (fin _ _ rfl)
      · next hl => exact .inr ⟨false, rfl, by simpa using ho, by simpa using hl, .inl ⟨a, b, rfl, rfl⟩⟩
  | send a b =>
    simp only [exec, execSend]
    split
    · exact .inl (fin _ _ rfl)
    · next ho =>
      split
      · exact .inl (fin _ _ rfl)
      · next hl => exact .inr ⟨s.ovf, rfl, by simpa using ho, by simpa using hl, .inr ⟨a, b, rfl, rfl⟩⟩

/-- Every command answers a next state. -/
theorem exec_next (i : Instr) (s : State) : ∃ t, exec i s = .next t := by
  rcases exec_cases i s with ⟨c, u, h, _⟩ | ⟨o, h, _⟩ <;> exact ⟨_, h⟩

/-- The engine's move: nothing outside EXEC, the decoded command in it, or IllegalCommand. -/
theorem engineMove_cases {s t : State} (h : engineMove s = .next t) :
    (s.phase ≠ .exec ∧ t = s) ∨
    (s.phase = .exec ∧ ∃ i, decode s.cmd = .ok i ∧ exec i s = .next t) ∨
    (s.phase = .exec ∧ (∃ e, decode s.cmd = .error e) ∧ t = complete .illegalCommand s) := by
  unfold engineMove at h
  split at h
  · next hp =>
    split at h
    · next i hd => exact .inr (.inl ⟨hp, i, hd, h⟩)
    · next e hd => exact .inr (.inr ⟨hp, ⟨e, hd⟩, by cases h; rfl⟩)
  all_goals next hp => exact .inl ⟨by simp [hp], by cases h; rfl⟩

/-- A burst of further inputs changes nothing but what is still to come. -/
theorem refill_eq (s : State) : refill s = { s with inputs := (refill s).inputs, later := (refill s).later } := by
  unfold refill
  split <;> rfl

/-- With no input left and no command executing: more inputs, or time to the next event. -/
theorem idleMove_cases (s : State) :
    (s.later ≠ .quiet ∧ idleMove s = refill s) ∨
    (s.later = .quiet ∧ idleMove s = passTime ((nextEvent s).getD 1) s) := by
  unfold idleMove
  split
  · next h => exact .inr ⟨h, rfl⟩
  all_goals next h => exact .inl ⟨by simp [h], rfl⟩

/-- What a step is, out of reset: a timed transition, the move with no input left, or the next input. In reset: more
inputs, or what remains of the next one. -/
theorem step_cases {s t : State} (h : step s = .next t) :
    (s.rstN = true ∧ transitionNow s = some t) ∨
    (s.rstN = true ∧ transitionNow s = none ∧ s.inputs = [] ∧
      ((s.phase = .exec ∧ engineMove s = .next t) ∨
        (s.phase ≠ .exec ∧ s.later ≠ .quiet ∧ t = refill s) ∨
        (s.phase ≠ .exec ∧ s.later = .quiet ∧ t = passTime ((nextEvent s).getD 1) s))) ∨
    (∃ i rest, s.rstN = true ∧ transitionNow s = none ∧ s.inputs = i :: rest ∧
      applyInput i { s with inputs := rest } = .next t) ∨
    (s.rstN = false ∧ s.inputs = [] ∧ t = refill s) ∨
    (∃ i rest, s.rstN = false ∧ s.inputs = i :: rest ∧ t = applyInputInReset i { s with inputs := rest }) := by
  unfold step move at h
  split at h
  · next hr =>
    split at h
    · next u hu => cases h; exact .inl ⟨hr, hu⟩
    · next hn =>
      split at h
      · next hi =>
        refine .inr (.inl ⟨hr, hn, hi, ?_⟩)
        unfold restMove at h
        split at h
        · next hp => exact .inl ⟨hp, h⟩
        all_goals
          next hp =>
            have hp : s.phase ≠ .exec := by simp [hp]
            cases h
            rcases idleMove_cases s with ⟨hl, he⟩ | ⟨hl, he⟩
            · exact .inr (.inl ⟨hp, hl, he⟩)
            · exact .inr (.inr ⟨hp, hl, he⟩)
      · next i rest hi => exact .inr (.inr (.inl ⟨i, rest, hr, hn, hi, h⟩))
  · next hr =>
    have hr : s.rstN = false := by simpa using hr
    split at h
    · next hi => cases h; exact .inr (.inr (.inr (.inl ⟨hr, hi, rfl⟩)))
    · next i rest hi => cases h; exact .inr (.inr (.inr (.inr ⟨i, rest, hr, hi, rfl⟩)))

/-- The timed transitions: WAIT_IDLE to TX, and the ends of RX_WAIT and RX_ACTIVE. -/
theorem transitionNow_cases {s t : State} (h : transitionNow s = some t) :
    (s.phase = .waitIdle ∧ silent s = true ∧ t = beginTx s) ∨
    (s.phase = .rxWait ∧ timedOut s = true ∧ t = complete .timeout s) ∨
    (s.phase = .rxActive ∧ (silent s || timedOut s) = true ∧ t = complete (receptionCode s) s) := by
  unfold transitionNow at h
  split at h
  · next hp => simp at h; exact .inl ⟨hp, h.1, h.2.symm⟩
  · next hp => simp at h; exact .inr (.inl ⟨hp, h.1, h.2.symm⟩)
  · next hp =>
    refine .inr (.inr ⟨hp, ?_⟩)
    split at h
    · next hc => exact ⟨hc, by simpa using h.symm⟩
    · simp at h
  all_goals cases h

/-- What is still to come does not make a transition due. -/
@[simp] theorem transitionNow_inputs (s : State) (l : List Input) :
    transitionNow { s with inputs := l } = (transitionNow s).map (fun t => { t with inputs := l }) := by
  have h1 : silent { s with inputs := l } = silent s := rfl
  have h2 : timedOut { s with inputs := l } = timedOut s := rfl
  simp only [transitionNow, h1, h2]
  split
  · split <;> rfl
  · split <;> rfl
  · split <;> rfl
  all_goals rfl

/-- When no transition is due. -/
@[simp] theorem transitionNow_exec {s : State} (h : s.phase = .exec) : transitionNow s = none := by
  simp [transitionNow, h]

@[simp] theorem transitionNow_idle {s : State} (h : s.phase = .idle) : transitionNow s = none := by
  simp [transitionNow, h]

@[simp] theorem transitionNow_tx {s : State} (h : s.phase = .tx) : transitionNow s = none := by
  simp [transitionNow, h]

/-- An input's turn: the step is the input's effect. -/
theorem step_input {s : State} {i : Input} {rest : List Input} (hr : s.rstN = true)
    (hn : transitionNow s = none) (hi : s.inputs = i :: rest) :
    step s = applyInput i { s with inputs := rest } := by
  simp [step, move, hr, hn, hi]

/-- A due transition: the step is it. -/
theorem step_transition {s t : State} (hr : s.rstN = true) (h : transitionNow s = some t) :
    step s = .next t := by
  simp [step, move, hr, h]

end Sys2Proof.Machine
end

