-- ==== Sys2Proof/Laws/Bus.lean ====
section
/-! SUPPORT. Host accesses: which register a word number is (R23), and that the low address bits select nothing. -/

namespace Sys2Proof.Machine

/-- The register map from word number 12 on. -/
theorem hostRegOfWord_ge {n : Nat} (h : 12 ≤ n) :
    hostRegOfWord n =
      if n < 0x80 then .reserved
      else if n < 0xFB then .wval (n - 0x80)
      else if n < 0x100 then .reserved
      else if n < 0x200 then .txbuf (n - 0x100)
      else if n < 0x300 then .rxbuf (n - 0x200)
      else .reserved := by
  unfold hostRegOfWord
  split
  all_goals first
    | omega
    | rfl

/-- The entries of WVAL. -/
theorem hostRegOfWord_wval (i : Nat) (h : i < 123) : hostRegOfWord (0x80 + i) = .wval i := by
  rw [hostRegOfWord_ge (by omega), if_neg (by omega), if_pos (by omega)]
  exact congrArg HostReg.wval (by omega)

/-- The entries of TXBUF. -/
theorem hostRegOfWord_txbuf (i : Nat) (h : i < 256) : hostRegOfWord (0x100 + i) = .txbuf i := by
  rw [hostRegOfWord_ge (by omega), if_neg (by omega), if_neg (by omega), if_neg (by omega), if_pos (by omega)]
  exact congrArg HostReg.txbuf (by omega)

/-- The entries of RXBUF. -/
theorem hostRegOfWord_rxbuf (i : Nat) (h : i < 256) : hostRegOfWord (0x200 + i) = .rxbuf i := by
  rw [hostRegOfWord_ge (by omega), if_neg (by omega), if_neg (by omega), if_neg (by omega), if_neg (by omega),
    if_pos (by omega)]
  exact congrArg HostReg.rxbuf (by omega)

/-- The reserved offsets of R23. -/
theorem hostRegOfWord_reserved (n : Nat) (h : (0x0C ≤ n ∧ n ≤ 0x7F) ∨ (0xFB ≤ n ∧ n ≤ 0xFF) ∨ 0x300 ≤ n) :
    hostRegOfWord n = .reserved := by
  rw [hostRegOfWord_ge (by omega)]
  rcases h with h | h | h
  · rw [if_pos (by omega)]
  · rw [if_neg (by omega), if_neg (by omega), if_pos (by omega)]
  · rw [if_neg (by omega), if_neg (by omega), if_neg (by omega), if_neg (by omega), if_neg (by omega)]

/-- Which word number an entry of WVAL or TXBUF has. -/
theorem hostRegOfWord_eq_wval {n i : Nat} (h : hostRegOfWord n = .wval i) : n = 0x80 + i ∧ i < 123 := by
  by_cases h12 : n < 12
  · have : ∀ m < 12, ∀ j, hostRegOfWord m ≠ .wval j := by
      intro m hm j
      iterate 12 (cases m with | zero => exact fun e => by cases e | succ m => ?_)
      omega
    exact absurd h (this n h12 i)
  · rw [hostRegOfWord_ge (by omega)] at h
    split at h
    · cases h
    · split at h
      · have := HostReg.wval.inj h
        omega
      · split at h
        · cases h
        · split at h
          · cases h
          · split at h <;> cases h

theorem hostRegOfWord_eq_txbuf {n i : Nat} (h : hostRegOfWord n = .txbuf i) : n = 0x100 + i ∧ i < 256 := by
  by_cases h12 : n < 12
  · have : ∀ m < 12, ∀ j, hostRegOfWord m ≠ .txbuf j := by
      intro m hm j
      iterate 12 (cases m with | zero => exact fun e => by cases e | succ m => ?_)
      omega
    exact absurd h (this n h12 i)
  · rw [hostRegOfWord_ge (by omega)] at h
    split at h
    · cases h
    · split at h
      · cases h
      · split at h
        · cases h
        · split at h
          · have := HostReg.txbuf.inj h
            omega
          · split at h <;> cases h

theorem hostRegAt_wval_lt {p : BitVec 12} {i : Nat} (h : hostRegAt p = .wval i) : i < 123 :=
  (hostRegOfWord_eq_wval h).2

theorem hostRegAt_txbuf_lt {p : BitVec 12} {i : Nat} (h : hostRegAt p = .txbuf i) : i < 256 :=
  (hostRegOfWord_eq_txbuf h).2

/-- The low two address bits select nothing (R54). -/
theorem hostRegAt_aligned (p : BitVec 12) : hostRegAt (p &&& 0xFFC) = hostRegAt p := by
  have h : (p &&& 0xFFC) >>> 2 = p >>> 2 := by
    apply BitVec.eq_of_getLsbD_eq
    intro i hi
    have hb : ∀ j < 12, j < 10 → (0xFFC : BitVec 12).getLsbD (2 + j) = true := by decide
    simp only [BitVec.getLsbD_ushiftRight, BitVec.getLsbD_and]
    by_cases h10 : i < 10
    · rw [hb i hi h10, Bool.and_true]
    · rw [BitVec.getLsbD_of_ge p (2 + i) (by omega), Bool.false_and]
  have h' := congrArg BitVec.toNat h
  simp only [BitVec.toNat_ushiftRight, Nat.shiftRight_eq_div_pow] at h'
  simp only [hostRegAt]
  exact congrArg hostRegOfWord h'

end Sys2Proof.Machine
end

