-- ==== Sys2Proof/Laws/Codec.lean ====
section
/-! SUPPORT. What the encoders write: the sequences of TXBUF bytes, and the frame `emit` (R100) builds. -/

namespace Sys2Proof.Machine

open Sys2Proof.Safety

@[simp] theorem txBytes_zero (s : State) (i : Nat) : txBytes s i 0 = [] := rfl

/-- Two neighbouring sequences of TXBUF bytes. -/
theorem txBytes_append (s : State) (i m n : Nat) :
    txBytes s i (m + n) = txBytes s i m ++ txBytes s (i + m) n := by
  simp [txBytes, List.range_add, Nat.add_assoc]

theorem txBytes_succ (s : State) (i n : Nat) : txBytes s i (n + 1) = txByte s i :: txBytes s (i + 1) n := by
  rw [Nat.add_comm n 1, txBytes_append]
  simp [txBytes]

theorem rxBytes_append (s : State) (i m n : Nat) :
    rxBytes s i (m + n) = rxBytes s i m ++ rxBytes s (i + m) n := by
  simp [rxBytes, List.range_add, Nat.add_assoc]

/-- Equal entries give equal sequences. -/
theorem txBytes_congr {s t : State} {i n : Nat} (h : ∀ j, j < n → txByte s (i + j) = txByte t (i + j)) :
    txBytes s i n = txBytes t i n := by
  unfold txBytes
  exact List.map_congr_left fun j hj => h j (List.mem_range.1 hj)

theorem rxBytes_congr' {s t : State} {i n : Nat} (h : ∀ j, j < n → rxByte s (i + j) = rxByte t (i + j)) :
    rxBytes s i n = rxBytes t i n := by
  unfold rxBytes
  exact List.map_congr_left fun j hj => h j (List.mem_range.1 hj)

/-- Bytes written to TXBUF are read back. -/
theorem txBytes_setTx (m : Memory) (s : State) (i : Nat) (bs : List Byte) :
    txBytes (withMem (Memory.setTx m i bs) s) i bs.length = bs := by
  apply List.ext_getElem
  · simp
  · intro j h1 h2
    simp [txByte, byteAt, withMem, Memory.get_setTx bs m i j h2]

/-- A TXBUF entry outside the written ones. -/
theorem txByte_setTx_other (m : Memory) (s : State) (i j : Nat) (bs : List Byte) (h : j < i ∨ i + bs.length ≤ j) :
    txByte (withMem (Memory.setTx m i bs) s) j = txByte (withMem m s) j := by
  have : (Memory.setTx m i bs).get (txOffset j) = m.get (txOffset j) :=
    Memory.get_setTx_other bs m i _ fun k hk => by simp only [txOffset]; omega
  simp [txByte, byteAt, withMem, this]

/-- A sequence of TXBUF bytes outside the written ones. -/
theorem txBytes_setTx_other (m : Memory) (s : State) (i j n : Nat) (bs : List Byte)
    (h : j + n ≤ i ∨ i + bs.length ≤ j) :
    txBytes (withMem (Memory.setTx m i bs) s) j n = txBytes (withMem m s) j n :=
  txBytes_congr fun k hk => txByte_setTx_other m s i (j + k) bs (by omega)

/-- What `emit` writes: address and function, then the CRC of the frame so far. -/
theorem emitMem_eq (a f : Byte) (p : Nat) (s : State) :
    emitMem a f p s =
      Memory.setTx (Memory.setTx s.mem 0 [a, f]) (2 + p)
        [lo8 (crc16 ([a, f] ++ txBytes s 2 p)), hi8 (crc16 ([a, f] ++ txBytes s 2 p))] := by
  have h : txBytes (withMem (Memory.setTx s.mem 0 [a, f]) s) 0 (2 + p) = [a, f] ++ txBytes s 2 p := by
    rw [txBytes_append]
    congr 1
    · exact txBytes_setTx s.mem s 0 [a, f]
    · exact txBytes_setTx_other s.mem s 0 2 p [a, f] (by simp)
  simp only [emitMem, h]

/-- `emit` leaves the frame of the payload in TXBUF[0..p+4) (R82, R100). -/
theorem txBytes_emitMem (a f : Byte) (p : Nat) (s : State) :
    txBytes (withMem (emitMem a f p s) s) 0 (p + 4) = frameBytes a f (txBytes s 2 p) := by
  rw [emitMem_eq, show p + 4 = 2 + p + 2 by omega, txBytes_append]
  unfold frameBytes
  congr 1
  · rw [txBytes_setTx_other _ _ _ _ _ _ (by simp), txBytes_append]
    congr 1
    · exact txBytes_setTx s.mem s 0 [a, f]
    · exact txBytes_setTx_other s.mem s 0 2 p [a, f] (by simp)
  · rw [Nat.zero_add]
    exact txBytes_setTx _ s (2 + p) [_, _]

/-- An offset `emit` does not write. -/
theorem get_emitMem_other (a f : Byte) (p : Nat) (s : State) (x : Nat) (h0 : x ≠ txOffset 0) (h1 : x ≠ txOffset 1)
    (h2 : x ≠ txOffset (2 + p)) (h3 : x ≠ txOffset (3 + p)) : (emitMem a f p s).get x = s.mem.get x := by
  rw [emitMem_eq, Memory.get_setTx_other, Memory.get_setTx_other]
  · intro j hj
    have : j = 0 ∨ j = 1 := by simp at hj; omega
    rcases this with rfl | rfl
    · exact h0
    · exact h1
  · intro j hj
    have : j = 0 ∨ j = 1 := by simp at hj; omega
    rcases this with rfl | rfl
    · exact h2
    · rw [show 2 + p + 1 = 3 + p by omega]; exact h3

theorem emitMem_wf {s : State} (h : s.mem.wf = true) (a f : Byte) (p : Nat) : (emitMem a f p s).wf = true :=
  Memory.setTx_wf _ (Memory.setTx_wf _ h _) _

/-- A template encoder completes with OK: what it writes, and nothing else. -/
theorem encodePayload_eq (a f : Byte) (payload : List Byte) (s : State) :
    encodePayload a f payload s = .next (complete .ok
      { s with
        mem := emitMem a f payload.length (withMem (Memory.setTx s.mem 2 payload) s)
        txlen := BitVec.ofNat 9 (payload.length + 4), raddr := a, rfunc := f }) := rfl

/-- A template encoder leaves the frame of its payload in TXBUF. -/
theorem txBytes_encodePayload (a f : Byte) (payload : List Byte) (s : State) :
    txBytes (withMem (emitMem a f payload.length (withMem (Memory.setTx s.mem 2 payload) s)) s) 0
      (payload.length + 4) = frameBytes a f payload := by
  have h := txBytes_emitMem a f payload.length (withMem (Memory.setTx s.mem 2 payload) s)
  rw [txBytes_setTx] at h
  exact h

/-- A template encoder writes nothing outside its frame. -/
theorem get_encodePayload_other (a f : Byte) (payload : List Byte) (s : State) (x : Nat)
    (h : ∀ j, j < payload.length + 4 → x ≠ txOffset j) :
    (emitMem a f payload.length (withMem (Memory.setTx s.mem 2 payload) s)).get x = s.mem.get x := by
  rw [get_emitMem_other]
  · exact Memory.get_setTx_other payload s.mem 2 x fun j hj => h _ (by omega)
  all_goals exact h _ (by omega)

@[simp] theorem wvalBytes_length (s : State) (c : Nat) : (wvalBytes s c).length = 2 * c := by
  simp [wvalBytes, bigEndian, List.length_flatMap, Nat.mul_comm]

@[simp] theorem wmrPayload_length (s : State) : (wmrPayload s).length = 5 + 2 * (argB s).toNat := by
  simp [wmrPayload, bigEndian]
  omega

/-- R98's test. -/
theorem addressInvalid_eq (a : Byte) : addressInvalid a = decide (247 < a.toNat) := rfl

/-- R99's tests on ENC.RAW. -/
theorem rawLengthError_eq_false (f : Byte) (p : Nat) (s : State) :
    rawLengthError f p s = false ↔ PayloadAllowed f p (txByte s 4 ++ txByte s 5).toNat := by
  have h : rawCount s = (txByte s 4 ++ txByte s 5).toNat := rfl
  unfold rawLengthError PayloadAllowed
  simp only [← h, Bool.or_eq_false_iff, Bool.and_eq_false_imp, decide_eq_false_iff_not, beq_iff_eq, bne_eq_false_iff_eq,
    Nat.not_lt, and_assoc]

/-- A byte of a received sequence. -/
theorem byteOf_rxBytes (s : State) {n j : Nat} (h : j < n) : byteOf (rxBytes s 0 n) j = rxByte s j := by
  simp [byteOf, List.getD, h]

theorem rxBytes_take (s : State) {n m : Nat} (h : m ≤ n) : (rxBytes s 0 n).take m = rxBytes s 0 m := by
  obtain ⟨k, rfl⟩ := Nat.exists_eq_add_of_le h
  rw [rxBytes_append, List.take_left' (by simp)]

/-- R103 on RXBUF[0..RXLEN). -/
theorem decodeFrame_rxBytes (s : State) :
    decodeFrame (rxBytes s 0 s.rxlen.toNat) =
      (let n := s.rxlen.toNat
       if n < 4 then .frameTooShort
       else if crc16 (rxBytes s 0 (n - 2)) ≠ rxByte s (n - 1) ++ rxByte s (n - 2) then .crcMismatch
       else if (rxByte s 1).getLsbD 7 then .exception (rxByte s 0) (rxByte s 1) (rxByte s 2) (n - 4)
       else .data (rxByte s 0) (rxByte s 1) (n - 4)) := by
  unfold decodeFrame
  simp only [rxBytes_length, Config.minFrame]
  by_cases h : s.rxlen.toNat < 4
  · simp [h]
  · simp only [h, if_false]
    rw [rxBytes_take s (by omega), byteOf_rxBytes s (by omega), byteOf_rxBytes s (by omega),
      byteOf_rxBytes s (by omega), byteOf_rxBytes s (by omega), byteOf_rxBytes s (by omega)]
    rfl

end Sys2Proof.Machine
end

