-- ==== Sys2Proof/Laws/Crc.lean ====
section
/-! SUPPORT. The CRC step is one to one in each of its arguments, and a frame's own CRC bytes bring the register to 0
(40_crc.md section 1). -/

namespace Sys2Proof.Machine

/-- The bit shifted out stays visible as the highest bit. -/
theorem crcShift_top (x : Half) : (crcShift x).getLsbD 15 = x.getLsbD 0 := by
  unfold crcShift
  split <;> simp_all

theorem crcShift_inj {x y : Half} (h : crcShift x = crcShift y) : x = y := by
  have h0 : x.getLsbD 0 = y.getLsbD 0 := by rw [← crcShift_top, ← crcShift_top, h]
  have hs : x >>> 1 = y >>> 1 := by
    unfold crcShift at h
    rw [h0] at h
    split at h
    · have := congrArg (· ^^^ 0xA001#16) h
      simpa [BitVec.xor_assoc] using this
    · exact h
  apply BitVec.eq_of_getLsbD_eq
  intro i hi
  cases i with
  | zero => exact h0
  | succ i =>
    have := congrArg (fun v => BitVec.getLsbD v i) hs
    simpa [BitVec.getLsbD_ushiftRight, Nat.add_comm] using this

theorem crcShifts_inj (n : Nat) : ∀ {x y : Half}, crcShifts n x = crcShifts n y → x = y := by
  induction n with
  | zero => exact fun h => h
  | succ n ih => exact fun h => crcShift_inj (ih h)

/-- One to one in the register. -/
theorem crcStep_inj_left {b : Byte} {c d : Half} (h : crcStep c b = crcStep d b) : c = d := by
  have := congrArg (· ^^^ b.setWidth 16) (crcShifts_inj 8 h)
  simpa [BitVec.xor_assoc] using this

/-- One to one in the byte. -/
theorem crcStep_inj_right {c : Half} {b d : Byte} (h : crcStep c b = crcStep c d) : b = d := by
  have := congrArg (c ^^^ ·) (crcShifts_inj 8 h)
  simp only [← BitVec.xor_assoc, BitVec.xor_self, BitVec.zero_xor] at this
  simpa using congrArg (BitVec.setWidth 8) this

/-- One to one in the starting register, over any bytes. -/
theorem crcFold_inj (bs : List Byte) : ∀ {c d : Half}, bs.foldl crcStep c = bs.foldl crcStep d → c = d := by
  induction bs with
  | nil => exact fun h => h
  | cons b bs ih => exact fun h => crcStep_inj_left (ih h)

theorem crc16_append (xs ys : List Byte) : crc16 (xs ++ ys) = ys.foldl crcStep (crc16 xs) := by
  simp [crc16]

/-- Eight shifts of a register whose low byte is clear move its high byte down. -/
theorem crcShifts_low_clear : ∀ y : Byte, crcShifts 8 (y.setWidth 16 <<< 8) = y.setWidth 16 := by decide +kernel

/-- Stepping by the register's own low byte leaves the high byte. -/
theorem crcStep_lo8 (c : Half) : crcStep c (lo8 c) = (hi8 c).setWidth 16 := by
  unfold crcStep
  rw [← crcShifts_low_clear (hi8 c)]
  congr 1
  apply BitVec.eq_of_getLsbD_eq
  intro i hi
  simp [lo8, hi8]
  by_cases h : i < 8
  · simp [h, hi]
  · have : i - 8 < 8 := by omega
    simp [h, hi, show i - 8 < 16 by omega, show 8 + (i - 8) = i by omega]
    exact fun _ => this

/-- Stepping a register of one byte by that byte leaves 0. -/
theorem crcStep_self (b : Byte) : crcStep (b.setWidth 16) b = 0 := by
  unfold crcStep
  simp only [BitVec.xor_self]
  decide

end Sys2Proof.Machine
end

