-- ==== Sys2Proof/Laws/Encoding.lean ====
section
/-! SUPPORT. The fields of an assembled command word, and a word from its fields. -/

namespace Sys2Proof

/-- The bits of an assembled command word, from the lowest field up. -/
theorem commandWord_getLsbD (op a8 b8 : Byte) (i : Nat) :
    (commandWord op a8 b8).getLsbD i =
      if i < 8 then op.getLsbD i
      else if i < 16 then a8.getLsbD (i - 8)
      else if i < 24 then b8.getLsbD (i - 16)
      else false := by
  have h1 := BitVec.getLsbD_append (x := 0#8 ++ b8 ++ a8) (y := op) (i := i)
  have h2 := BitVec.getLsbD_append (x := 0#8 ++ b8) (y := a8) (i := i - 8)
  have h3 := BitVec.getLsbD_append (x := 0#8) (y := b8) (i := i - 8 - 8)
  refine h1.trans ?_
  rw [h2, h3]
  by_cases c1 : i < 8
  · simp [c1]
  · by_cases c2 : i < 16
    · simp [c1, c2, show i - 8 < 8 by omega]
    · by_cases c3 : i < 24
      · rw [if_neg c1, if_neg (by omega), if_pos (by omega), if_neg c1, if_neg c2, if_pos c3,
          show i - 8 - 8 = i - 16 by omega]
      · rw [if_neg c1, if_neg (by omega), if_neg (by omega), if_neg c1, if_neg c2, if_neg c3]
        simp

@[simp] theorem fieldOp_commandWord (op a8 b8 : Byte) : fieldOp (commandWord op a8 b8) = op := by
  apply BitVec.eq_of_getLsbD_eq
  intro i hi
  simp [fieldOp, commandWord_getLsbD, hi]

@[simp] theorem fieldA8_commandWord (op a8 b8 : Byte) : fieldA8 (commandWord op a8 b8) = a8 := by
  apply BitVec.eq_of_getLsbD_eq
  intro i hi
  simp [fieldA8, commandWord_getLsbD, hi, show 8 + i < 16 by omega]

@[simp] theorem fieldB8_commandWord (op a8 b8 : Byte) : fieldB8 (commandWord op a8 b8) = b8 := by
  apply BitVec.eq_of_getLsbD_eq
  intro i hi
  simp [fieldB8, commandWord_getLsbD, hi, show ¬16 + i < 8 by omega,
    show ¬16 + i < 16 by omega, show 16 + i < 24 by omega]

@[simp] theorem fieldRsv_commandWord (op a8 b8 : Byte) : fieldRsv (commandWord op a8 b8) = 0 := by
  apply BitVec.eq_of_getLsbD_eq
  intro i hi
  simp [fieldRsv, BitVec.getLsbD_extractLsb', commandWord_getLsbD, show ¬24 + i < 8 by omega,
    show ¬24 + i < 16 by omega, show ¬24 + i < 24 by omega]

/-- A word whose RSV is 0 is its fields put together. -/
theorem commandWord_fields (w : Word) (h : fieldRsv w = 0) :
    commandWord (fieldOp w) (fieldA8 w) (fieldB8 w) = w := by
  apply BitVec.eq_of_getLsbD_eq
  intro i hi
  simp only [commandWord_getLsbD, fieldOp, fieldA8, fieldB8, BitVec.getLsbD_extractLsb']
  by_cases c1 : i < 8
  · simp [c1]
  · by_cases c2 : i < 16
    · simp [c1, c2, show i - 8 < 8 by omega, show 8 + (i - 8) = i by omega]
    · by_cases c3 : i < 24
      · simp [c1, c2, c3, show i - 16 < 8 by omega, show 16 + (i - 16) = i by omega]
      · have := congrArg (fun v => BitVec.getLsbD v (i - 24)) h
        simp [fieldRsv, show i - 24 < 8 by omega,
          show 24 + (i - 24) = i by omega] at this
        simp [c1, c2, c3, this]

end Sys2Proof
end

