-- ==== Sys2Proof/Laws/Invariant.lean ====
section
/-! SUPPORT. Parts of the invariant: every operation on the buffers keeps memory's canonical form and stays inside
the memory map, a completion needs only a few of the invariant's clauses, and most fields do not matter to it. -/

namespace Sys2Proof.Machine

open Sys2Proof.Safety

theorem txOffset_isBuffer {i : Nat} (h : i < 256) : isBufferOffset (txOffset i) = true := by
  simp only [isBufferOffset, Bool.or_eq_true, Bool.and_eq_true, decide_eq_true_eq]
  unfold txOffset
  omega

theorem rxOffset_isBuffer {i : Nat} (h : i < 256) : isBufferOffset (rxOffset i) = true := by
  simp only [isBufferOffset, Bool.or_eq_true, Bool.and_eq_true, decide_eq_true_eq]
  unfold rxOffset
  omega

theorem wvalOffset_isBuffer {i : Nat} (h : i < 123) :
    isBufferOffset (wvalOffset i) = true ∧ isBufferOffset (wvalOffset i + 1) = true := by
  simp only [isBufferOffset, Bool.or_eq_true, Bool.and_eq_true, decide_eq_true_eq]
  unfold wvalOffset
  omega

/-- Memory lists buffer bytes only. -/
def InMap (m : Memory) : Prop := ∀ c ∈ m, isBufferOffset c.1 = true

theorem InMap.set {m : Memory} (h : InMap m) {a : Nat} (ha : isBufferOffset a = true) (v : Byte) :
    InMap (m.set a v) := by
  intro c hc
  rcases Memory.mem_set hc with rfl | hc
  · exact ha
  · exact h c hc

theorem InMap.setTx {m : Memory} (h : InMap m) {i : Nat} {bs : List Byte} (hl : i + bs.length ≤ 256) :
    InMap (m.setTx i bs) := by
  intro c hc
  rcases Memory.mem_setTx bs hc with hc | ⟨j, hj, he⟩
  · exact h c hc
  · rw [he]
    exact txOffset_isBuffer (by omega)

theorem InMap.emitMem {s : State} (h : InMap s.mem) (a f : Byte) {p : Nat} (hp : p ≤ 252) :
    InMap (emitMem a f p s) := by
  rw [emitMem_eq]
  exact (h.setTx (by simp)).setTx (by simp; omega)

theorem setWval_wf {m : Memory} (h : m.wf = true) (i : Nat) (v : Half) : (setWval i v m).wf = true :=
  Memory.set_wf (Memory.set_wf h _ _) _ _

theorem InMap.setWval {m : Memory} (h : InMap m) {i : Nat} (hi : i < 123) (v : Half) : InMap (setWval i v m) :=
  (h.set (wvalOffset_isBuffer hi).1 _).set (wvalOffset_isBuffer hi).2 _

theorem storeChar_wf {s : State} (h : s.mem.wf = true) (d : Byte) (ok : Bool) :
    (storeChar d ok s).mem.wf = true := by
  unfold storeChar
  dsimp only
  split
  · exact Memory.set_wf h _ _
  · exact h

theorem InMap.storeChar {s : State} (h : InMap s.mem) (d : Byte) (ok : Bool) : InMap (storeChar d ok s).mem := by
  unfold Machine.storeChar
  dsimp only
  split
  · next hf => exact h.set (rxOffset_isBuffer (by simpa [rxFits] using hf)) _
  · exact h

/-- A host write keeps the canonical form. -/
theorem hostWrite_wf {s : State} (h : s.mem.wf = true) (p : BitVec 12) (v : Word) :
    (hostWrite p v s).mem.wf = true := by
  unfold hostWrite unlessBusy
  split
  all_goals first
    | exact h
    | (split
       · exact h
       · first
         | exact h
         | exact setWval_wf h _ _
         | exact Memory.set_wf h _ _)

/-- What a completed state must still have to meet the invariant. -/
theorem MachineInv.of_complete {u : State} (c : ResultCode) (h1 : u.mem.wf = true) (h2 : InMap u.mem)
    (h3 : u.silence ≠ 0) (h4 : u.rxlen.toNat ≤ 256) (h5 : u.txShift = none)
    (h6 : ∀ l, u.lineChar = some l → l.elapsed < 55 ∧ (l.heard = true → u.opened = true))
    (h7 : if u.result.kind = .none then u.result = .clear ∧ u.rplen = 0
      else u.rplen.toNat + 4 = u.rxlen.toNat)
    (h8 : u.result.kind ≠ .exception → u.result.excode = 0) (h9 : u.rstN = true) :
    MachineInv (complete c u) where
  memCanonical := h1
  memInMap := h2
  busyIffPhase := by simp
  opOfCmd := by simp
  notDoneWhileBusy := by simp
  silenceLegal := h3
  rxlenLegal := h4
  lineCommand := by simp [onLine]
  nothingReceived := by simp [beforeReception]
  xchgReceives := by simp [receiving]
  active := by simp
  sending := by simp [h5]
  sent := by simp [h5]
  onRxd := by
    intro l hl
    refine ⟨(h6 l hl).1, fun hh => ?_⟩
    simp [rxEnabled, reN, (h6 l hl).2 hh]
  payloadLength := h7
  exceptionCode := h8
  inReset := by simp [h9]

/-- Out of reset the invariant does not depend on the flags IE, WBUSY, RXERR, LATE, on CODE, ARG, CRC, TIMEOUT, REQ,
the timers, the pins or the model's own fields. -/
theorem MachineInv.of_agree {s t : State} (h : MachineInv s) (hr : t.rstN = true)
    (ht : t = { s with
      ie := t.ie, wbusy := t.wbusy, rxerr := t.rxerr, late := t.late, code := t.code, arg := t.arg, crc := t.crc,
      timeout := t.timeout, raddr := t.raddr, rfunc := t.rfunc, idle := t.idle, resp := t.resp, rstN := t.rstN,
      phyOk := t.phyOk, prdata := t.prdata, draws := t.draws, inputs := t.inputs, later := t.later }) :
    MachineInv t := by
  rw [ht]
  exact {
    memCanonical := h.memCanonical
    memInMap := h.memInMap
    busyIffPhase := h.busyIffPhase
    opOfCmd := h.opOfCmd
    notDoneWhileBusy := h.notDoneWhileBusy
    silenceLegal := h.silenceLegal
    rxlenLegal := h.rxlenLegal
    lineCommand := h.lineCommand
    nothingReceived := h.nothingReceived
    xchgReceives := h.xchgReceives
    active := h.active
    sending := h.sending
    sent := h.sent
    onRxd := h.onRxd
    payloadLength := h.payloadLength
    exceptionCode := h.exceptionCode
    inReset := fun h' => by simp [hr] at h' }

/-- What is still to come does not matter, in reset or out of it. -/
theorem MachineInv.inputs {s : State} (h : MachineInv s) (l : List Input) : MachineInv { s with inputs := l } :=
  { h with inReset := fun hr => by rw [h.inReset hr] }

/-- A burst of further inputs keeps the invariant. -/
theorem MachineInv.refill {s : State} (h : MachineInv s) : MachineInv (refill s) := by
  rw [refill_eq]
  exact { h with inReset := fun hr => by rw [h.inReset hr] }

/-- Where a command executes, nothing is being sent, and a heard character means an open port. -/
theorem MachineInv.exec_line {s : State} (h : MachineInv s) (hp : s.phase = .exec) :
    s.txShift = none ∧
      ∀ l, s.lineChar = some l → l.elapsed < 55 ∧ (l.heard = true → s.opened = true) := by
  constructor
  · simpa [hp] using h.sending
  · intro l hl
    obtain ⟨h1, h2⟩ := h.onRxd l hl
    exact ⟨h1, fun hh => by simpa [rxEnabled, reN, hp] using h2 hh⟩

/-- The opcode of a decoded word is the command's. -/
theorem fieldOp_of_decode {w : Word} {i : Instr} (h : decode w = .ok i) : fieldOp w = opcodeOf i := by
  unfold decode at h
  split at h
  · split at h
    · next j hj =>
      cases h
      unfold decodeOp at hj
      split at hj
      all_goals first
        | (next hx =>
            cases hj
            apply BitVec.eq_of_toNat_eq
            rw [hx]
            rfl)
        | cases hj
    · cases h
  · cases h

end Sys2Proof.Machine
end

