-- ==== Sys2Proof/Laws/PerInstr.lean ====
section
/-! SUPPORT. Every command encodes to a command word that R77's own list of illegal words does not name, one lemma per
command. The decoder is written from R76's list, the check from R77's, so this compares the two. -/

namespace Sys2Proof.Laws

/-- The family: the word of `i` is legal by R77. -/
def EncodeLegal.Statement (i : Instr) : Prop := WellFormed.commandWord (encode i) = true

theorem commandWord_toNat_mod (op a8 b8 : Byte) : (commandWord op a8 b8).toNat % 256 = op.toNat := by
  have := congrArg BitVec.toNat (fieldOp_commandWord op a8 b8)
  simpa [fieldOp] using this

theorem commandWord_toNat_div (op a8 b8 : Byte) : (commandWord op a8 b8).toNat / 2 ^ 24 = 0 := by
  have := congrArg BitVec.toNat (fieldRsv_commandWord op a8 b8)
  have h := (commandWord op a8 b8).isLt
  simp [fieldRsv, Nat.shiftRight_eq_div_pow] at this
  omega

/-- Only the opcode decides whether an assembled word is legal. -/
theorem commandWord_legal {op : Byte} (a8 b8 : Byte) (h : WellFormed.opcodeAssigned (op.setWidth 32) = true) :
    WellFormed.commandWord (commandWord op a8 b8) = true := by
  have e : (op.setWidth 32).toNat % 256 = op.toNat := by
    have := op.isLt
    simp
    omega
  unfold WellFormed.opcodeAssigned at h
  rw [e] at h
  unfold WellFormed.commandWord WellFormed.reservedClear WellFormed.opcodeAssigned
  rw [commandWord_toNat_mod, commandWord_toNat_div, h]
  rfl

theorem EncodeLegal.crcInit (a8 b8 : Byte) : EncodeLegal.Statement (.crcInit a8 b8) :=
  commandWord_legal a8 b8 rfl

theorem EncodeLegal.crcByte (a8 b8 : Byte) : EncodeLegal.Statement (.crcByte a8 b8) :=
  commandWord_legal a8 b8 rfl

theorem EncodeLegal.crcTx (a8 b8 : Byte) : EncodeLegal.Statement (.crcTx a8 b8) :=
  commandWord_legal a8 b8 rfl

theorem EncodeLegal.crcRx (a8 b8 : Byte) : EncodeLegal.Statement (.crcRx a8 b8) :=
  commandWord_legal a8 b8 rfl

theorem EncodeLegal.encRaw (a8 b8 : Byte) : EncodeLegal.Statement (.encRaw a8 b8) :=
  commandWord_legal a8 b8 rfl

theorem EncodeLegal.encRhr (a8 b8 : Byte) : EncodeLegal.Statement (.encRhr a8 b8) :=
  commandWord_legal a8 b8 rfl

theorem EncodeLegal.encWmr (a8 b8 : Byte) : EncodeLegal.Statement (.encWmr a8 b8) :=
  commandWord_legal a8 b8 rfl

theorem EncodeLegal.encUnl (a8 b8 : Byte) : EncodeLegal.Statement (.encUnl a8 b8) :=
  commandWord_legal a8 b8 rfl

theorem EncodeLegal.dec (a8 b8 : Byte) : EncodeLegal.Statement (.dec a8 b8) :=
  commandWord_legal a8 b8 rfl

theorem EncodeLegal.chk (a8 b8 : Byte) : EncodeLegal.Statement (.chk a8 b8) :=
  commandWord_legal a8 b8 rfl

theorem EncodeLegal.openPort (a8 b8 : Byte) : EncodeLegal.Statement (.openPort a8 b8) :=
  commandWord_legal a8 b8 rfl

theorem EncodeLegal.closePort (a8 b8 : Byte) : EncodeLegal.Statement (.closePort a8 b8) :=
  commandWord_legal a8 b8 rfl

theorem EncodeLegal.xchg (a8 b8 : Byte) : EncodeLegal.Statement (.xchg a8 b8) :=
  commandWord_legal a8 b8 rfl

theorem EncodeLegal.send (a8 b8 : Byte) : EncodeLegal.Statement (.send a8 b8) :=
  commandWord_legal a8 b8 rfl

end Sys2Proof.Laws
end

