-- ==== Sys2Proof/Tests/Slice0.lean ====
section
/-! SUPPORT. Tests. Expected values are spec/95_test_vectors.md's (the vector's name stands above a test) or written
from the rule named. At the end, for every obligation with hypotheses, a concrete state and operands that meet
them. -/

namespace Sys2Proof.Tests

open Sys2Proof.Machine Sys2Proof.Safety

-- One theorem after another: each `decide +kernel` else holds a thread of its own while it waits.
set_option Elab.async false

/-! ## Small states -/

/-- RXBUF holds `bs`, RXLEN is its length. -/
def rxState (bs : List Byte) : State :=
  { State.reset with
    mem := (bs.zipIdx).map (fun p => (rxOffset p.2, p.1)), rxlen := BitVec.ofNat 9 bs.length,
    raddr := 0x01, rfunc := 0x03 }

/-- TXBUF[2..) holds `payload`, ARG.B16 is its length. -/
def rawState (payload : List Byte) : State :=
  { State.reset with mem := Memory.setTx [] 2 payload, arg := BitVec.ofNat 32 (payload.length * 65536) }

/-- ARG = {b, a}. -/
def argState (a b : Half) : State := { State.reset with arg := b ++ a }

/-- An open port with the read request of L2-TR in TXBUF. -/
def openState : State :=
  { State.reset with
    opened := true, txlen := 8, later := .quiet
    mem := Memory.setTx [] 0 [0x01, 0x03, 0x01, 0x10, 0x00, 0x01, 0x84, 0x33] }

/-- The engine is in phase `p` of the command word `w` on an open port. -/
def busyState (w : Word) (p : Phase) : State :=
  { openState with cmd := w, busy := true, op := some (fieldOp w), phase := p }

/-- What holds after a command. -/
def after (i : Instr) (s : State) (check : State → Bool) : Bool :=
  match exec i s with
  | .next t => check t
  | .fault _ | .refused _ => false

/-- What holds after a step. -/
def stepped (s : State) (check : State → Bool) : Bool :=
  match step s with
  | .next t => check t
  | .fault _ | .refused _ => false

/-! ## WellFormed: an ill-formed word for each check -/

theorem test_wellFormed_legal : WellFormed.commandWord 0x00410110 = true := by decide
theorem test_wellFormed_reserved : WellFormed.commandWord 0x01000001 = false := by decide
theorem test_wellFormed_reserved_is_that_check :
    WellFormed.reservedClear 0x01000001 = false ∧ WellFormed.opcodeAssigned 0x01000001 = true := by decide
theorem test_wellFormed_opcode : WellFormed.commandWord 0x00000005 = false := by decide
theorem test_wellFormed_opcode_is_that_check :
    WellFormed.reservedClear 0x00000005 = true ∧ WellFormed.opcodeAssigned 0x00000005 = false := by decide
/-- L2-REG-15, L2-REG-16. -/
theorem test_wellFormed_opcode_holes :
    ∀ w ∈ [0x00, 0x05, 0x0F, 0x14, 0x1F, 0x22, 0x2F, 0x34, 0xFF], WellFormed.commandWord (BitVec.ofNat 32 w) = false := by
  decide

/-! ## Decode: one word of each command, RSV B8 A8 OP written out (R72, R76) -/

theorem test_decode_crcInit : decode 0b00000000_00000000_00000000_00000001 = .ok (.crcInit 0x00 0x00) := by decide
theorem test_decode_crcByte : decode 0b00000000_00000000_10100101_00000010 = .ok (.crcByte 0xA5 0x00) := by decide
theorem test_decode_crcTx : decode 0b00000000_00000001_10000000_00000011 = .ok (.crcTx 0x80 0x01) := by decide
theorem test_decode_crcRx : decode 0b00000000_00000000_00000000_00000100 = .ok (.crcRx 0x00 0x00) := by decide
theorem test_decode_encRaw : decode 0b00000000_01000001_00000001_00010000 = .ok (.encRaw 0x01 0x41) := by decide
theorem test_decode_encRhr : decode 0b00000000_00000000_11110111_00010001 = .ok (.encRhr 0xF7 0x00) := by decide
theorem test_decode_encWmr : decode 0b00000000_00000000_00000001_00010010 = .ok (.encWmr 0x01 0x00) := by decide
theorem test_decode_encUnl : decode 0b00000000_00000000_00000001_00010011 = .ok (.encUnl 0x01 0x00) := by decide
theorem test_decode_dec : decode 0b00000000_00000000_00000000_00100000 = .ok (.dec 0x00 0x00) := by decide
theorem test_decode_chk : decode 0b00000000_11111111_00000000_00100001 = .ok (.chk 0x00 0xFF) := by decide
theorem test_decode_openPort : decode 0b00000000_00000000_00000000_00110000 = .ok (.openPort 0x00 0x00) := by decide
theorem test_decode_closePort : decode 0b00000000_00000000_00000000_00110001 = .ok (.closePort 0x00 0x00) := by decide
theorem test_decode_xchg : decode 0b00000000_00000000_00000000_00110010 = .ok (.xchg 0x00 0x00) := by decide
theorem test_decode_send : decode 0b00000000_00000000_00000000_00110011 = .ok (.send 0x00 0x00) := by decide
/-- L2-CRC-17, L2-REG-15. -/
theorem test_decode_refuses :
    decode 0x01000001 = .error .reservedNonZero ∧ decode 0x00000000 = .error .unassignedOpcode := by decide

/-! ## Commands -/

/-- L2-CRC-8, first step: from 0xFFFF. -/
theorem test_crcInit : after (.crcInit 0 0) { State.reset with crc := 0x1234 }
    (fun t => t.crc == 0xFFFF && t.done && t.code == .ok) = true := by decide
/-- L2-CRC-6. -/
theorem test_crcByte : after (.crcByte 0x55 0) { State.reset with crc := 0x1234 }
    (fun t => t.crc == 0xE8D3) = true := by decide +kernel
/-- L2-CRC-11. -/
theorem test_crcTx : after (.crcTx 0 0) { openState with arg := 0x00060000 }
    (fun t => t.crc == 0x3384 && t.code == .ok) = true := by decide +kernel
/-- L2-CRC-13. -/
theorem test_crcTx_length : after (.crcTx 0 0) { State.reset with arg := 0x000700FA, crc := 0x3384 }
    (fun t => t.crc == 0x3384 && t.code == .lengthError) = true := by decide +kernel
/-- L2-CRC-9. -/
theorem test_crcRx :
    after (.crcRx 0 0) { rxState [0x01, 0x03, 0x02, 0x00, 0x01, 0x79, 0x84] with arg := 0x00070000 }
      (fun t => t.crc == 0 && t.code == .ok) = true := by decide +kernel
/-- L2-CRC-14. -/
theorem test_crcRx_length : after (.crcRx 0 0) (argState 0 257) (fun t => t.code == .lengthError) = true := by
  decide +kernel
/-- L2-ENC-8. -/
theorem test_encRaw :
    after (.encRaw 0x01 0x10) (rawState [0x01, 0x10, 0x00, 0x01, 0x02, 0x00, 0x02])
      (fun t => txBytes t 0 11 == [0x01, 0x10, 0x01, 0x10, 0x00, 0x01, 0x02, 0x00, 0x02, 0x35, 0xC1] &&
        t.txlen == 11 && t.raddr == 0x01 && t.rfunc == 0x10) = true := by decide +kernel
/-- L2-ENC-10. -/
theorem test_encRaw_length :
    after (.encRaw 0x01 0x10) (rawState [0x01, 0x10, 0x00, 0x01, 0x02, 0x00, 0x02, 0x00, 0x00])
      (fun t => t.code == .lengthError && t.txlen == 0) = true := by decide +kernel
/-- L2-SES-1. -/
theorem test_encRhr : after (.encRhr 0x01 0) (argState 0x0110 1)
    (fun t => txBytes t 0 8 == [0x01, 0x03, 0x01, 0x10, 0x00, 0x01, 0x84, 0x33] && t.txlen == 8) = true := by
  decide +kernel
/-- L2-SES-5. -/
theorem test_encRhr_address : after (.encRhr 0xF8 0) (argState 0x0110 1)
    (fun t => t.code == .invalidAddress && t.mem == []) = true := by decide +kernel
/-- L2-SES-7. -/
theorem test_encWmr :
    after (.encWmr 0x01 0)
      { argState 0x0110 2 with mem := setWval 1 0xABCD (setWval 0 0x1234 []) }
      (fun t => txBytes t 0 13 ==
        [0x01, 0x10, 0x01, 0x10, 0x00, 0x02, 0x04, 0x12, 0x34, 0xAB, 0xCD, 0x05, 0x20] && t.txlen == 13) = true := by
  decide +kernel
/-- L2-SES-12. -/
theorem test_encWmr_order : after (.encWmr 0xF8 0) (argState 0x0110 0)
    (fun t => t.code == .invalidAddress) = true := by decide +kernel
/-- L2-SES-13. -/
theorem test_encUnl : after (.encUnl 0x01 0) State.reset
    (fun t => txBytes t 0 13 ==
      [0x01, 0x28, 0xFE, 0x01, 0x00, 0x02, 0x04, 0x00, 0x00, 0x00, 0x00, 0xFB, 0x12] &&
      t.raddr == 0x01 && t.rfunc == 0x28) = true := by decide +kernel
/-- L2-SES-16. -/
theorem test_encUnl_address : after (.encUnl 0xF8 0) State.reset (fun t => t.code == .invalidAddress) = true := by
  decide +kernel
/-- L2-DEC-5. -/
theorem test_dec_exception : after (.dec 0 0) (rxState [0x01, 0x83, 0x41, 0x81])
    (fun t => resultWord t.result == 0x02418301 && t.rplen == 0 && t.code == .ok) = true := by decide +kernel
/-- L2-DEC-11. -/
theorem test_dec_swapped : after (.dec 0 0) (rxState [0x01, 0x03, 0x02, 0x00, 0x01, 0x84, 0x79])
    (fun t => resultWord t.result == 0 && t.rplen == 0 && t.code == .crcMismatch) = true := by decide +kernel
/-- L2-CHK-6. -/
theorem test_chk_address_first : after (.chk 0 0) (rxState [0x02, 0x83, 0x02, 0x30, 0xF1])
    (fun t => resultWord t.result == 0x02028302 && t.rplen == 1 && t.code == .unexpectedAddress) = true := by
  decide +kernel
/-- L2-CHK-3. -/
theorem test_chk_function : after (.chk 0 0) (rxState [0x01, 0x04, 0x02, 0x00, 0x01, 0x78, 0xF0])
    (fun t => resultWord t.result == 0x01000401 && t.rplen == 3 && t.code == .unexpectedFunction) = true := by
  decide +kernel
/-- L2-TR-16. -/
theorem test_openPort_fails : after (.openPort 0 0) { State.reset with phyOk := false }
    (fun t => !t.opened && reN t && t.code == .connectFailed) = true := by decide
/-- L2-TR-17. -/
theorem test_openPort_again : after (.openPort 0 0) { openState with phyOk := false, idle := 7 }
    (fun t => t.opened && t.code == .ok && t.idle == 7) = true := by decide
/-- L2-TR-19. -/
theorem test_closePort : after (.closePort 0 0) { openState with rxlen := 7 }
    (fun t => !t.opened && t.rxlen == 7 && t.code == .ok && reN t) = true := by decide
/-- L2-TR-20. -/
theorem test_xchg_notOpen : after (.xchg 0 0) { State.reset with rxlen := 7, txlen := 8 }
    (fun t => t.rxlen == 7 && t.code == .notOpen && t.phase == .idle) = true := by decide
/-- L2-TR-3. -/
theorem test_xchg_length : after (.xchg 0 0) { openState with txlen := 511 }
    (fun t => t.code == .lengthError && t.txShift.isNone) = true := by decide
/-- L2-TR-2. -/
theorem test_send_length : after (.send 0 0) { openState with txlen := 0 }
    (fun t => t.code == .lengthError) = true := by decide
/-- R122: RXLEN, RESULT and RPLEN are cleared, then WAIT_IDLE. -/
theorem test_send_start : after (.send 0 0) { openState with rxlen := 7, rplen := 3 }
    (fun t => t.rxlen == 0 && t.rplen == 0 && t.phase == .waitIdle && t.op == openState.op) = true := by decide

/-! ## Steps -/

/-- R109, R112, L2-TT-1: the first bit of TXBUF[0] = 0x01 is a start bit, and the character 0x01 has parity 1. -/
theorem test_tx_begins : stepped { busyState 0x32 .waitIdle with idle := 195 }
    (fun t => t.phase == .tx && de t && reN t && !txd t &&
      t.txShift == some { bits := 0b11_00000001_0, elapsed := 0 }) = true := by decide +kernel
/-- L2-TT-2: 38 bit times are not yet silence. -/
theorem test_wait_holds : stepped { busyState 0x32 .waitIdle with idle := 190, inputs := [.wait 2] }
    (fun t => t.phase == .waitIdle && t.idle == 192) = true := by decide +kernel
/-- L2-TT-5: `resp` = 1000 ms. -/
theorem test_timeout : stepped { busyState 0x32 .rxWait with resp := 48000 }
    (fun t => t.code == .timeout && !t.busy && t.done && t.rxlen == 0) = true := by decide +kernel
/-- L2-TR-9: the 257th character. -/
theorem test_overflow : stepped
    { busyState 0x32 .rxActive with
      rxlen := 256, lineChar := some { data := 0x55, parity := false, stop := true, elapsed := 50, heard := true },
      inputs := [.wait 5] }
    (fun t => t.ovf && t.rxlen == 256 && !t.rxerr && t.phase == .rxActive) = true := by decide +kernel
/-- L2-TR-10: a parity error stores the byte and sets RXERR. -/
theorem test_parity_error : stepped
    { busyState 0x32 .rxWait with
      lineChar := some { data := 0x84, parity := true, stop := true, elapsed := 54, heard := true },
      inputs := [.wait 1] }
    (fun t => t.rxerr && rxByte t 0 == 0x84 && t.rxlen == 1 && t.phase == .rxActive) = true := by decide +kernel
/-- L2-TR-14. -/
theorem test_late : stepped
    { openState with
      lineChar := some { data := 0x01, parity := true, stop := true, elapsed := 54, heard := true },
      inputs := [.wait 1] }
    (fun t => t.late && t.rxlen == 0 && !t.busy && !irq t) = true := by decide +kernel
/-- L2-REG-2. -/
theorem test_silence_warl : stepped { State.reset with inputs := [.write 0x018 0] }
    (fun t => readReg .silence t == 1) = true := by decide +kernel
/-- L2-REG-6, in the place R23 gives WVAL(0). -/
theorem test_wval : stepped { State.reset with inputs := [.write 0x200 0x12345678] }
    (fun t => readReg (hostRegAt 0x200) t == 0x00005678) = true := by decide +kernel
/-- L2-REG-9. -/
theorem test_status_w1c : stepped
    { openState with
      code := .lengthError, late := true, rxerr := true, wbusy := true, done := true,
      inputs := [.write 0x004 0xFFFFFFFF] }
    (fun t => statusWord t == 0x00000B04) = true := by decide +kernel
/-- L2-REG-11. -/
theorem test_busy_write : stepped { busyState 0x32 .rxWait with inputs := [.write 0x400 0x55] }
    (fun t => t.wbusy && txByte t 0 == 0x01) = true := by decide +kernel
/-- L2-REG-15: the step of the engine after the acceptance of the word 0. -/
theorem test_illegal : stepped { State.reset with busy := true, phase := .exec, op := some 0 }
    (fun t => statusWord t == 0x00000902 && t.cmd == 0) = true := by decide +kernel
/-- R160: the surroundings go on where no input is left, and the block does not change. -/
theorem test_again : stepped { busyState 0x32 .waitIdle with later := .again [.charStart 0x55 false true] }
    (fun t => t == { busyState 0x32 .waitIdle with
      later := .again [.charStart 0x55 false true], inputs := [.charStart 0x55 false true, .wait 1] }) = true := by
  decide +kernel
/-- A command from reset: CRC.BYTE 0xA5, L2-CRC-5. -/
theorem test_withFetchWord : stepped (State.reset.withFetchWord 32 0x0000A502)
    (fun t => t.crc == 0x3B7F && t.done && t.cmd == 0x0000A502) = true := by decide +kernel
theorem test_decodeTableWord : decodeTableWord 8 0x02 = some (.crcByte 0 0) ∧
    decodeTableWord 32 0x00410110 = some (.encRaw 0x01 0x41) ∧ decodeTableWord 32 0x00000005 = none := by decide

/-! ## The hypotheses of the obligations are met: one theorem `witness_<obligation>` each -/

/-- The invariant as a check of one state. -/
def invCheck (s : State) : Bool :=
  s.mem.wf && s.mem.all (fun c => isBufferOffset c.1) && decide (s.busy = true ↔ s.phase ≠ .idle) &&
  decide (s.op = if s.busy then some (fieldOp s.cmd) else none) && decide (s.busy = true → s.done = false) &&
  decide (s.silence ≠ 0) && decide (s.rxlen.toNat ≤ 256) &&
  decide (onLine s.phase = true →
    s.opened = true ∧ 1 ≤ s.txlen.toNat ∧ s.txlen.toNat ≤ 256 ∧ (s.op = some 0x32 ∨ s.op = some 0x33) ∧
      s.result = .clear ∧ s.rplen = 0) &&
  decide (beforeReception s.phase = true → s.rxlen = 0 ∧ (s.op = some 0x32 → s.ovf = false)) &&
  decide (receiving s.phase = true → s.op = some 0x32) &&
  decide (s.phase = .rxActive → 1 ≤ s.rxlen.toNat ∧ (s.ovf = true → s.rxlen.toNat = 256)) &&
  decide (s.phase = .tx ↔ s.txShift.isSome = true) &&
  s.txShift.all (fun x => decide (1 ≤ s.k ∧ s.k ≤ s.txlen.toNat ∧ x.elapsed < 55 ∧
    x.bits = characterBits (txByte s (s.k - 1)) (evenParity (txByte s (s.k - 1))) true)) &&
  s.lineChar.all (fun c => decide (c.elapsed < 55 ∧ (c.heard = true → rxEnabled s = true))) &&
  decide (if s.result.kind = .none then s.result = .clear ∧ s.rplen = 0
    else s.rplen.toNat + 4 = s.rxlen.toNat) &&
  decide (s.result.kind ≠ .exception → s.result.excode = 0) && s.rstN

theorem invCheck_sound {s : State} (h : invCheck s = true) : MachineInv s := by
  simp only [invCheck, Bool.and_eq_true, List.all_eq_true, decide_eq_true_eq, Option.all_eq_true] at h
  obtain ⟨⟨⟨⟨⟨⟨⟨⟨⟨⟨⟨⟨⟨⟨⟨⟨h1, h2⟩, h3⟩, h4⟩, h5⟩, h6⟩, h7⟩, h8⟩, h9⟩, h10⟩, h11⟩, h12⟩, h13⟩, h14⟩, h15⟩, h16⟩, h17⟩ := h
  exact ⟨h1, h2, h3, h4, h5, h6, h7, h8, h9, h10, h11, h12, h13, h14, h15, h16, fun h => by simp [h17] at h⟩

theorem next_of_stepped {s : State} {P : State → Prop} [DecidablePred P]
    (h : stepped s (fun t => decide (P t)) = true) : ∃ t, step s = .next t ∧ P t := by
  unfold stepped at h
  split at h
  · next t ht => exact ⟨t, ht, of_decide_eq_true h⟩
  · cases h
  · cases h

theorem next_of_after {i : Instr} {s : State} {P : State → Prop} [DecidablePred P]
    (h : after i s (fun t => decide (P t)) = true) : ∃ t, exec i s = .next t ∧ P t := by
  unfold after at h
  split at h
  · next t ht => exact ⟨t, ht, of_decide_eq_true h⟩
  · cases h
  · cases h

/-- A host access is the next input, at word number `n`, with no transition due. -/
theorem hostWrites_of {s : State} {n : Nat} {v : Word} {rest : List Input} (hn : n < 1024) (hr : s.rstN = true)
    (ht : transitionNow s = none) (hi : s.inputs = .write (BitVec.ofNat 12 (4 * n)) v :: rest) :
    HostWrites s n v rest := ⟨_, by simp; omega, hr, ht, hi⟩

theorem hostReads_of {s : State} {n : Nat} {rest : List Input} (hn : n < 1024) (hr : s.rstN = true)
    (ht : transitionNow s = none) (hi : s.inputs = .read (BitVec.ofNat 12 (4 * n)) :: rest) :
    HostReads s n rest := ⟨_, by simp; omega, hr, ht, hi⟩

/-- A character on the line, its last tick still to come. -/
def lastTick (heard : Bool) : LineChar := { data := 0x01, parity := true, stop := true, elapsed := 54, heard := heard }

/-- The first and the last character of `openState`'s frame on `txd`. -/
def sendingFirst (w : Word) : State :=
  { busyState w .tx with
    k := 1, txShift := some { bits := characterBits 0x01 (evenParity 0x01) true, elapsed := 0 }
    inputs := [.wait 440] }

def sendingLast (w : Word) : State :=
  { busyState w .tx with
    k := 8, txShift := some { bits := characterBits 0x33 (evenParity 0x33) true, elapsed := 54 }
    inputs := [.wait 1] }

/-- Seven characters of a reply received. -/
def receivedState : State :=
  { busyState 0x32 .rxActive with
    rxlen := 7
    mem := openState.mem ++
      ([0x01, 0x03, 0x02, 0x00, 0x01, 0x79, 0x84].zipIdx).map (fun p => (rxOffset p.2, p.1)) }

theorem witness_states_inv :
    MachineInv openState ∧ MachineInv (busyState 0x32 .exec) ∧ MachineInv (busyState 0x33 .exec) ∧
      MachineInv (busyState 0x32 .waitIdle) ∧ MachineInv (busyState 0x32 .rxWait) ∧
      MachineInv (sendingFirst 0x32) ∧ MachineInv (sendingLast 0x33) ∧ MachineInv receivedState :=
  ⟨invCheck_sound (by decide +kernel), invCheck_sound (by decide +kernel), invCheck_sound (by decide +kernel),
    invCheck_sound (by decide +kernel), invCheck_sound (by decide +kernel), invCheck_sound (by decide +kernel),
    invCheck_sound (by decide +kernel), invCheck_sound (by decide +kernel)⟩

theorem witness_DecodeEncodeAgree : decode 0x00A55AA5 = .error .unassignedOpcode ∧
    decode 0x00FF0002 = .ok (.crcByte 0x00 0xFF) := by decide

/-- Both sides of every boundary of the opcode map, and a reserved field that is not 0. -/
theorem witness_OpcodeMap :
    (∀ op ∈ [0x01, 0x02, 0x03, 0x04, 0x10, 0x11, 0x12, 0x13, 0x20, 0x21, 0x30, 0x31, 0x32, 0x33],
      ∃ w : Word, w.extractLsb' 24 8 = 0 ∧ (w.extractLsb' 0 8).toNat = op) ∧
    (∃ w : Word, w.extractLsb' 24 8 = 0 ∧
      (w.extractLsb' 0 8).toNat ∉ [0x01, 0x02, 0x03, 0x04, 0x10, 0x20, 0x30, 0x31, 0x32, 0x33, 0x11, 0x12, 0x13, 0x21]) ∧
    (∃ w : Word, w.extractLsb' 24 8 ≠ 0) := by
  refine ⟨?_, ⟨0x34, by decide⟩, ⟨0x01000001, by decide⟩⟩
  intro op h
  refine ⟨BitVec.ofNat 32 op, ?_⟩
  revert op
  decide

theorem witness_StepRunsDecodedCommand :
    (∃ s : State, s.phase = .exec ∧ HasTurn s .engine [.wait 1] ∧ decode s.cmd = .ok (.dec 0 0)) ∧
    (∃ s : State, s.rstN = true ∧ s.phase = .exec ∧ s.inputs = [] ∧ decode s.cmd = .ok (.dec 0 0)) ∧
    decode 0x0000A502 = .ok (.crcByte 0xA5 0) :=
  ⟨⟨{ busyState 0x20 .exec with inputs := [.engine, .wait 1] }, rfl, ⟨rfl, rfl, rfl⟩, by decide⟩,
    ⟨busyState 0x20 .exec, rfl, rfl, rfl, by decide⟩, by decide⟩

theorem witness_CommandAcceptance :
    (∃ s : State, HostWrites s 2 0x20 [] ∧ s.busy = false) ∧ (∃ s : State, HostWrites s 2 0x20 [] ∧ s.busy = true) ∧
    (∃ s : State, s.phase = .exec ∧ HasTurn s .engine [] ∧ ∃ e, decode s.cmd = .error e) :=
  ⟨⟨{ openState with inputs := [.write 8 0x20] }, hostWrites_of (by omega) rfl rfl rfl, rfl⟩,
    ⟨{ busyState 0x32 .exec with inputs := [.write 8 0x20] }, hostWrites_of (by omega) rfl rfl rfl, rfl⟩,
    ⟨{ busyState 0 .exec with inputs := [.engine] }, rfl, ⟨rfl, rfl, rfl⟩, .unassignedOpcode, by decide⟩⟩

/-- A word of each kind R77 names, at the ends of its ranges. -/
theorem witness_IllegalWordCompletes :
    ∀ w ∈ ([0x01000001, 0x00, 0x05, 0x0F, 0x14, 0x1F, 0x22, 0x2F, 0x34, 0xFF] : List Word),
      (∃ s : State, s.busy = false ∧ s.phase = .idle ∧ s.op = none ∧ HostWrites s 2 w [.engine]) ∧
      (w.extractLsb' 24 8 ≠ 0 ∨
        (let op := (w.extractLsb' 0 8).toNat
         op = 0 ∨ (0x05 ≤ op ∧ op ≤ 0x0F) ∨ (0x14 ≤ op ∧ op ≤ 0x1F) ∨ (0x22 ≤ op ∧ op ≤ 0x2F) ∨
           (0x34 ≤ op ∧ op ≤ 0xFF))) := by
  intro w hw
  refine ⟨⟨{ openState with inputs := [.write 8 w, .engine] }, rfl, rfl, rfl, hostWrites_of (by omega) rfl rfl rfl⟩, ?_⟩
  simp only [List.mem_cons, List.not_mem_nil, or_false] at hw
  rcases hw with rfl | rfl | rfl | rfl | rfl | rfl | rfl | rfl | rfl | rfl <;> decide

theorem witness_CommandStartsOnlyByAcceptance :
    (∃ s : State, s.busy = false ∧ ∃ t, step s = .next t ∧ t.busy = true) ∧
    (∃ s : State, s.busy = true ∧ ∃ t, step s = .next t ∧ t.busy = true ∧ t.phase = .waitIdle) :=
  ⟨⟨{ openState with inputs := [.write 8 0x20] }, rfl, next_of_stepped (by decide +kernel)⟩,
    ⟨busyState 0x32 .exec, rfl, next_of_stepped (by decide +kernel)⟩⟩

theorem witness_CrcDetectsChanges :
    (0 : Nat) < [(0x01 : Byte)].length ∧ [(0x01 : Byte)][0]? ≠ some 0x02 := by decide

/-- The last length inside the buffer and the first outside, and a start index at its end. -/
theorem witness_CrcTxResult :
    (∃ s : State, (s.arg.extractLsb' 0 16).toNat + (s.arg.extractLsb' 16 16).toNat = 257) ∧
    (∃ s : State, (s.arg.extractLsb' 0 16).toNat + (s.arg.extractLsb' 16 16).toNat = 256) ∧
    (∃ s : State, (s.arg.extractLsb' 0 16).toNat = 256 ∧ (s.arg.extractLsb' 16 16).toNat = 0) :=
  ⟨⟨argState 250 7, by decide⟩, ⟨argState 0 256, by decide⟩, ⟨argState 256 0, by decide⟩⟩

theorem witness_CrcRxResult :
    (∃ s : State, (s.arg.extractLsb' 0 16).toNat + (s.arg.extractLsb' 16 16).toNat = 257) ∧
    (∃ s : State, (s.arg.extractLsb' 0 16).toNat + (s.arg.extractLsb' 16 16).toNat = 256) :=
  ⟨⟨argState 0 257, by decide⟩, ⟨argState 249 7, by decide⟩⟩

theorem witness_EncoderAddressCheck :
    (248 : Byte).toNat > 247 ∧ (255 : Byte).toNat > 247 ∧ (247 : Byte).toNat ≤ 247 ∧ (0 : Byte).toNat ≤ 247 := by decide

/-- Each limit of R99 from both sides. -/
theorem witness_EncoderLengthLimits :
    PayloadAllowed 0x42 252 0 ∧ ¬PayloadAllowed 0x42 253 0 ∧ PayloadAllowed 0x03 4 0 ∧ ¬PayloadAllowed 0x03 5 0 ∧
    PayloadAllowed 0x10 7 1 ∧ PayloadAllowed 0x10 251 123 ∧ ¬PayloadAllowed 0x10 5 0 ∧ ¬PayloadAllowed 0x10 252 124 ∧
    PayloadAllowed 0x28 9 0 ∧ ¬PayloadAllowed 0x28 8 0 ∧ (∃ s : State, (s.arg.extractLsb' 16 16).toNat = 0) ∧
    (∃ s : State, (s.arg.extractLsb' 16 16).toNat = 123) ∧ (∃ s : State, (s.arg.extractLsb' 16 16).toNat = 124) := by
  refine ⟨?_, ?_, ?_, ?_, ?_, ?_, ?_, ?_, ?_, ?_, ⟨argState 0 0, by decide⟩, ⟨argState 0 123, by decide⟩,
    ⟨argState 0 124, by decide⟩⟩ <;> unfold PayloadAllowed <;> decide

theorem witness_EncRawBuildsFrame :
    ∃ s : State, (247 : Byte).toNat ≤ 247 ∧
      PayloadAllowed 0x10 (s.arg.extractLsb' 16 16).toNat (txByte s 4 ++ txByte s 5).toNat :=
  ⟨rawState [0x01, 0x10, 0x00, 0x01, 0x02, 0x00, 0x02], by decide, by unfold PayloadAllowed; decide +kernel⟩

theorem witness_EncRhrBuildsFrame : (0xF7 : Byte).toNat ≤ 247 := by decide

theorem witness_EncWmrBuildsFrame :
    ∃ s : State, (0xF7 : Byte).toNat ≤ 247 ∧ 1 ≤ (s.arg.extractLsb' 16 16).toNat ∧
      (s.arg.extractLsb' 16 16).toNat = 123 := ⟨argState 0x0110 123, by decide⟩

theorem witness_EncUnlBuildsFrame :
    (0xF8 : Byte).toNat > 247 ∧ (0 : Byte).toNat ≤ 247 ∧ (1 : Byte).toNat ≤ 247 := by decide

/-- 3 bytes; 4 bytes with a wrong CRC; valid frames with bit 7 of the function set and clear. -/
theorem witness_DecodeResult :
    (∃ s : State, s.rxlen.toNat = 3) ∧
    (∃ s : State, s.rxlen.toNat = 4 ∧ ¬crc16 (rxBytes s 0 2) = rxByte s 3 ++ rxByte s 2) ∧
    (∃ s : State, s.rxlen.toNat = 4 ∧ crc16 (rxBytes s 0 2) = rxByte s 3 ++ rxByte s 2 ∧ (rxByte s 1).getLsbD 7 = true) ∧
    (∃ s : State, s.rxlen.toNat = 4 ∧ crc16 (rxBytes s 0 2) = rxByte s 3 ++ rxByte s 2 ∧ (rxByte s 1).getLsbD 7 = false) :=
  ⟨⟨rxState [0x01, 0x03, 0x40], by decide⟩, ⟨rxState [0x01, 0x03, 0x40, 0x20], by decide +kernel⟩,
    ⟨rxState [0x01, 0x83, 0x41, 0x81], by decide +kernel⟩, ⟨rxState [0x01, 0x03, 0x40, 0x21], by decide +kernel⟩⟩

/-- Every case of R129: L2-CHK-7, L2-CHK-2, L2-CHK-4, L2-CHK-3, L2-CHK-1. -/
theorem witness_CheckResult :
    (∃ s u, exec (.dec 0 0) s = .next u ∧ u.code ≠ .ok) ∧
    (∃ s u, exec (.dec 0 0) s = .next u ∧ u.code = .ok ∧ u.result.addr ≠ 0x01 ∧ s.raddr = 0x01) ∧
    (∃ s u, exec (.dec 0 0) s = .next u ∧ u.code = .ok ∧ u.result.addr = s.raddr ∧ u.result.kind = .exception) ∧
    (∃ s u, exec (.dec 0 0) s = .next u ∧ u.code = .ok ∧ u.result.addr = s.raddr ∧ u.result.kind ≠ .exception ∧
      u.result.func ≠ 0x03 ∧ s.rfunc = 0x03) ∧
    (∃ s u, exec (.dec 0 0) s = .next u ∧ u.code = .ok ∧ u.result.addr = 0x01 ∧ u.result.kind ≠ .exception ∧
      u.result.func = 0x03 ∧ s.raddr = 0x01 ∧ s.rfunc = 0x03) := by
  refine ⟨⟨rxState [0x01, 0x03], next_of_after (by decide +kernel)⟩,
    ⟨rxState [0x03, 0x03, 0x02, 0x00, 0x01, 0x00, 0x44], ?_⟩,
    ⟨rxState [0x01, 0x83, 0x02, 0xC0, 0xF1], next_of_after (by decide +kernel)⟩,
    ⟨rxState [0x01, 0x04, 0x02, 0x00, 0x01, 0x78, 0xF0], ?_⟩,
    ⟨rxState [0x01, 0x03, 0x02, 0x00, 0x01, 0x79, 0x84], ?_⟩⟩ <;>
  exact next_of_after (by decide +kernel)

/-- A frame looped back, L1-2, and the same with one byte changed. -/
theorem witness_EncodeDecodeInverse :
    ∃ s t : State, PayloadAllowed 0x03 (s.arg.extractLsb' 16 16).toNat (txByte s 4 ++ txByte s 5).toNat ∧
      exec (.encRaw 0x01 0x03) s = .next t ∧ ∃ u : State, u.rxlen = t.txlen ∧
        rxBytes u 0 t.txlen.toNat = txBytes t 0 t.txlen.toNat := by
  obtain ⟨t, h, h1, h2⟩ := next_of_after (i := .encRaw 0x01 0x03) (s := rawState [0x01, 0x10, 0x00, 0x01])
    (P := fun t => t.txlen = 8 ∧ txBytes t 0 8 = [0x01, 0x03, 0x01, 0x10, 0x00, 0x01, 0x84, 0x33])
    (by decide +kernel)
  refine ⟨_, t, by unfold PayloadAllowed; decide +kernel, h,
    rxState [0x01, 0x03, 0x01, 0x10, 0x00, 0x01, 0x84, 0x33], ?_, ?_⟩
  · rw [h1]
    decide
  · rw [h1]
    exact Eq.trans (by decide +kernel) h2.symm

theorem witness_CorruptedFrameIsRejected :
    ∃ s s' t : State, exec (.dec 0 0) s = .next t ∧ t.code = .ok ∧ s'.rxlen = s.rxlen ∧ 3 < s.rxlen.toNat ∧
      rxByte s' 3 ≠ rxByte s 3 ∧ ∀ i, i < s.rxlen.toNat → i ≠ 3 → rxByte s' i = rxByte s i := by
  obtain ⟨t, h, h1⟩ := next_of_after (i := .dec 0 0) (s := rxState [0x01, 0x03, 0x40, 0x21])
    (P := fun t => t.code = .ok) (by decide +kernel)
  exact ⟨_, rxState [0x01, 0x03, 0x40, 0x20], t, h, h1, by decide, by decide, by decide, by decide⟩

theorem witness_OpenResult :
    openState.opened = true ∧ (∃ s : State, s.opened = false ∧ s.phyOk = false) ∧
      (∃ s : State, s.opened = false ∧ s.phyOk = true) :=
  ⟨rfl, ⟨{ openState with opened := false, phyOk := false }, rfl, rfl⟩, ⟨{ openState with opened := false }, rfl, rfl⟩⟩

theorem witness_CloseResult : ∃ s : State, MachineInv s ∧ s.opened = false :=
  ⟨{ openState with opened := false, lineChar := some (lastTick false) }, invCheck_sound (by decide +kernel), rfl⟩

/-- TXLEN at 0, 1, 256 and 257. -/
theorem witness_ExchangeStart :
    (∃ s : State, s.opened = false) ∧ (∃ s : State, s.opened = true ∧ s.txlen.toNat < 1) ∧
      (∃ s : State, s.opened = true ∧ s.txlen.toNat = 257) ∧ (∃ s : State, s.opened = true ∧ s.txlen.toNat = 1) ∧
      (∃ s : State, s.opened = true ∧ s.txlen.toNat = 256) :=
  ⟨⟨State.reset, rfl⟩, ⟨{ openState with txlen := 0 }, by decide⟩, ⟨{ openState with txlen := 257 }, by decide⟩,
    ⟨{ openState with txlen := 1 }, by decide⟩, ⟨{ openState with txlen := 256 }, by decide⟩⟩

/-- Silence just reached, one tick short of it, a busy line, and a line whose gaps are one tick short of SILENCE. -/
theorem witness_WaitIdleHoldsUntilSilence :
    (∃ s : State, MachineInv s ∧ s.rstN = true ∧ s.phase = .waitIdle ∧ s.lineChar = none ∧
      s.silence.toNat * 5 = s.idle) ∧
    (∃ s : State, MachineInv s ∧ s.rstN = true ∧ s.phase = .waitIdle ∧ s.idle + 1 = s.silence.toNat * 5 ∧
      ∃ t, step s = .next t ∧ t.rstN = true) ∧
    (∃ s : State, MachineInv s ∧ s.rstN = true ∧ s.phase = .waitIdle ∧ s.lineChar ≠ none ∧
      ∃ t, step s = .next t ∧ t.rstN = true) ∧
    (∃ s : State, MachineInv s ∧ s.rstN = true ∧ s.phase = .waitIdle ∧ s.lineChar = none ∧
      s.idle < s.silence.toNat * 5 ∧ 193 + 1 < s.silence.toNat * 5 ∧ s.inputs = [] ∧
      s.later = .again [.charStart 0x55 false true, .wait 55, .wait 193]) :=
  ⟨⟨{ busyState 0x32 .waitIdle with idle := 195 }, invCheck_sound (by decide +kernel), by decide⟩,
    ⟨{ busyState 0x32 .waitIdle with idle := 194 }, invCheck_sound (by decide +kernel), rfl, rfl, by decide,
      next_of_stepped (by decide +kernel)⟩,
    ⟨{ busyState 0x32 .waitIdle with idle := 300, lineChar := some (lastTick true) },
      invCheck_sound (by decide +kernel), rfl, rfl, by decide, next_of_stepped (by decide +kernel)⟩,
    ⟨{ busyState 0x32 .waitIdle with
        idle := 194, later := .again [.charStart 0x55 false true, .wait 55, .wait 193] },
      invCheck_sound (by decide +kernel), by decide⟩⟩

theorem witness_CharacterFormat :
    (∃ s x, State.txShift s = some x ∧ x.elapsed = 5 * 10 + 4) ∧ (∃ s : State, s.txShift = none) :=
  ⟨⟨sendingLast 0x32, _, rfl, rfl⟩, ⟨openState, rfl⟩⟩

/-- SEND and XCHG. -/
theorem witness_TransmissionIsBackToBack : ∀ w ∈ ([0x32, 0x33] : List Word), ∃ s : State,
    s.rstN = true ∧ s.phase = .tx ∧ s.op = some (fieldOp w) ∧ s.lineChar = none ∧ 1 ≤ s.txlen.toNat ∧ s.k = 1 ∧
      s.txShift = some { bits := characterBits (txByte s 0) (evenParity (txByte s 0)) true, elapsed := 0 } ∧
      s.inputs = .wait (55 * s.txlen.toNat) :: [] := fun w _ =>
  ⟨sendingFirst w, rfl, rfl, rfl, rfl, show 1 ≤ 8 by decide, rfl, rfl, rfl⟩

/-- A host access in the middle of a character, a character that gives way to the next, and both ends of the phase. -/
theorem witness_NothingStopsATransmission :
    (∃ s : State, MachineInv s ∧ s.rstN = true ∧ s.phase = .tx ∧
      ∃ t, step s = .next t ∧ t.rstN = true ∧ t.phase = .tx ∧ t.k = 2) ∧
    (∃ s : State, MachineInv s ∧ s.rstN = true ∧ s.phase = .tx ∧ ∃ t, step s = .next t ∧ t.rstN = true ∧ t.phase = .tx) ∧
    (∃ s : State, MachineInv s ∧ s.rstN = true ∧ s.phase = .tx ∧ ∃ t, step s = .next t ∧ t.rstN = true ∧ t.phase = .idle) ∧
    (∃ s : State, MachineInv s ∧ s.rstN = true ∧ s.phase = .tx ∧
      ∃ t, step s = .next t ∧ t.rstN = true ∧ t.phase = .rxWait) :=
  ⟨⟨sendingFirst 0x32, invCheck_sound (by decide +kernel), rfl, rfl, next_of_stepped (by decide +kernel)⟩,
    ⟨{ sendingFirst 0x32 with inputs := [.write 0x400 0x55] }, invCheck_sound (by decide +kernel), rfl, rfl,
      next_of_stepped (by decide +kernel)⟩,
    ⟨sendingLast 0x33, invCheck_sound (by decide +kernel), rfl, rfl, next_of_stepped (by decide +kernel)⟩,
    ⟨sendingLast 0x32, invCheck_sound (by decide +kernel), rfl, rfl, next_of_stepped (by decide +kernel)⟩⟩

/-- A character begins; a heard one and an unheard one go on through OPEN; a heard one is cut by CLOSE; an unheard one
ends on an open port. -/
theorem witness_ReceiverHearsFromTheStart :
    (∃ s : State, HasTurn s (.charStart 0x01 true true) [] ∧ s.lineChar = none) ∧
    (∀ b : Bool, ∃ s : State, s.rstN = true ∧ s.lineChar = some (lastTick b) ∧
      ∃ t, step s = .next t ∧ t.opened = true ∧ t.lineChar = some (lastTick b)) ∧
    (∃ s : State, s.rstN = true ∧ s.lineChar = some (lastTick true) ∧
      ∃ t, step s = .next t ∧ t.lineChar = some (lastTick false)) ∧
    (∃ s : State, s.rstN = true ∧ s.lineChar = some (lastTick false) ∧
      ∃ t, step s = .next t ∧ t.rstN = true ∧ t.opened = true ∧ t.lineChar = none) :=
  ⟨⟨{ busyState 0x32 .rxWait with inputs := [.charStart 0x01 true true] }, ⟨rfl, by decide +kernel, rfl⟩, rfl⟩,
    fun b => ⟨{ busyState 0x30 .exec with opened := b, lineChar := some (lastTick b) }, rfl, rfl,
      next_of_stepped (by revert b; decide +kernel)⟩,
    ⟨{ busyState 0x31 .exec with lineChar := some (lastTick true) }, rfl, rfl, next_of_stepped (by decide +kernel)⟩,
    ⟨{ openState with lineChar := some (lastTick false), inputs := [.wait 1] }, rfl, rfl,
      next_of_stepped (by decide +kernel)⟩⟩

/-- The first character, the 256th, and one more; a wait to its end and one past it. -/
theorem witness_ReceivedCharacterIsStored : ∀ n ∈ [0, 255, 256], ∀ w ∈ [1, 2],
    let s := { busyState 0x32 (if n = 0 then .rxWait else .rxActive) with
      rxlen := BitVec.ofNat 9 n, lineChar := some (lastTick true), resp := 47999, inputs := [.wait w] }
    HasTurn s (.wait w) [] ∧ 55 - (lastTick true).elapsed ≤ w ∧ (s.phase = .rxWait ∨ s.phase = .rxActive) ∧
      s.opened = true ∧ s.txShift = none ∧ s.lineChar = some (lastTick true) ∧ (lastTick true).heard = true ∧
      (lastTick true).elapsed < 55 ∧ s.resp + (55 - (lastTick true).elapsed) ≤ s.timeout.toNat * 48 ∧
      s.rxlen.toNat = n := by
  unfold HasTurn
  decide +kernel

theorem witness_LateCharacterIsDiscarded : ∀ p ∈ [Phase.idle, .exec, .waitIdle], ∀ w ∈ [1, 2],
    let s := { busyState 0x32 p with lineChar := some (lastTick true), inputs := [.wait w] }
    HasTurn s (.wait w) [] ∧ 55 - (lastTick true).elapsed ≤ w ∧ (s.phase = .idle ∨ s.phase = .exec ∨ s.phase = .waitIdle) ∧
      s.opened = true ∧ s.txShift = none ∧ s.lineChar = some (lastTick true) ∧ (lastTick true).heard = true ∧
      (lastTick true).elapsed < 55 := by
  unfold HasTurn
  decide +kernel

/-- The timeout just reached, TIMEOUT = 0, one tick short of it, and a character that ends in time. -/
theorem witness_ResponseTimeout :
    (∃ s : State, MachineInv s ∧ s.rstN = true ∧ s.phase = .rxWait ∧ s.timeout.toNat * 48 = s.resp) ∧
    (∃ s : State, MachineInv s ∧ s.rstN = true ∧ s.phase = .rxWait ∧ s.timeout = 0 ∧ s.resp = 0) ∧
    (∃ s : State, MachineInv s ∧ s.rstN = true ∧ s.phase = .rxWait ∧ s.resp + 1 = s.timeout.toNat * 48 ∧
      ∃ t, step s = .next t ∧ t.rstN = true ∧ t.phase = .rxWait) ∧
    (∃ s : State, MachineInv s ∧ s.rstN = true ∧ s.phase = .rxWait ∧ s.resp + 1 = s.timeout.toNat * 48 ∧
      ∃ t, step s = .next t ∧ t.rstN = true ∧ t.phase = .rxActive) :=
  ⟨⟨{ busyState 0x32 .rxWait with resp := 48000 }, invCheck_sound (by decide +kernel), rfl, rfl, by decide⟩,
    ⟨{ busyState 0x32 .rxWait with timeout := 0 }, invCheck_sound (by decide +kernel), rfl, rfl, rfl, rfl⟩,
    ⟨{ busyState 0x32 .rxWait with resp := 47999 }, invCheck_sound (by decide +kernel), rfl, rfl, by decide,
      next_of_stepped (by decide +kernel)⟩,
    ⟨{ busyState 0x32 .rxWait with resp := 47999, lineChar := some (lastTick true), inputs := [.wait 1] },
      invCheck_sound (by decide +kernel), rfl, rfl, by decide, next_of_stepped (by decide +kernel)⟩⟩

/-- Silence just reached, the timeout just reached on a busy line, and neither. -/
theorem witness_ReceptionEnd :
    (∃ s : State, MachineInv s ∧ s.rstN = true ∧ s.phase = .rxActive ∧ s.lineChar = none ∧
      s.silence.toNat * 5 = s.idle) ∧
    (∃ s : State, MachineInv s ∧ s.rstN = true ∧ s.phase = .rxActive ∧ s.lineChar ≠ none ∧
      s.timeout.toNat * 48 = s.resp) ∧
    (∃ s : State, MachineInv s ∧ s.rstN = true ∧ s.phase = .rxActive ∧
      ¬((s.lineChar = none ∧ s.silence.toNat * 5 ≤ s.idle) ∨ s.timeout.toNat * 48 ≤ s.resp) ∧
      ∃ t, step s = .next t ∧ t.rstN = true) :=
  ⟨⟨{ receivedState with idle := 195 }, invCheck_sound (by decide +kernel), by decide⟩,
    ⟨{ receivedState with lineChar := some (lastTick true), resp := 48000 }, invCheck_sound (by decide +kernel),
      by decide⟩,
    ⟨{ receivedState with idle := 194, resp := 47999 }, invCheck_sound (by decide +kernel), rfl, rfl, by decide,
      next_of_stepped (by decide +kernel)⟩⟩

/-- A reply of 4 characters that ends at the last moment the timeout allows, and one of 256. -/
theorem witness_ExchangeReceivesReply : ∀ n ∈ [4, 256],
    let reply := List.replicate n (0x55 : Byte)
    let s := { busyState 0x32 .rxWait with
      resp := 48000 - 55 * n - 195, inputs := replyInputs reply ++ [Input.wait 195] }
    s.rstN = true ∧ s.opened = true ∧ s.phase = .rxWait ∧ s.lineChar = none ∧ s.txShift = none ∧
      s.rxlen = 0 ∧ s.ovf = false ∧ 1 ≤ s.silence.toNat ∧ 4 ≤ reply.length ∧ reply.length ≤ 256 ∧
      s.resp + 55 * reply.length + 5 * s.silence.toNat ≤ s.timeout.toNat * 48 ∧
      s.inputs = replyInputs reply ++ Input.wait (5 * s.silence.toNat) :: [] := by
  intro n hn reply s
  have hs : s.silence.toNat = 39 := rfl
  have ht : s.timeout.toNat = 1000 := rfl
  have hl : reply.length = n := List.length_replicate
  have hr : s.resp = 48000 - 55 * n - 195 := rfl
  rw [hs, ht, hl, hr]
  simp only [List.mem_cons, List.not_mem_nil, or_false] at hn
  exact ⟨rfl, rfl, rfl, rfl, rfl, rfl, rfl, by omega, by omega, by omega, by omega, rfl⟩

theorem witness_SendCompletes :
    ∃ s : State, MachineInv s ∧ s.rstN = true ∧ s.phase = .exec ∧ decode s.cmd = .ok (.send 0 0) ∧ s.opened = true ∧
      1 ≤ s.txlen.toNat ∧ s.txlen.toNat ≤ 256 ∧ s.lineChar = none ∧ s.inputs = [] ∧ s.later = .quiet :=
  ⟨busyState 0x33 .exec, invCheck_sound (by decide +kernel), by decide⟩

theorem witness_UnansweredExchangeTimesOut :
    ∃ s : State, MachineInv s ∧ s.rstN = true ∧ s.phase = .exec ∧ decode s.cmd = .ok (.xchg 0 0) ∧ s.opened = true ∧
      1 ≤ s.txlen.toNat ∧ s.txlen.toNat ≤ 256 ∧ s.lineChar = none ∧ s.inputs = [] ∧ s.later = .quiet :=
  ⟨busyState 0x32 .exec, invCheck_sound (by decide +kernel), by decide⟩

/-- Every word number is read and written, by an idle and by a busy block: all clauses of HostReadValues,
ReservedAccess, BusyWritesAreIgnored, OperandWrites, BufferWrites and StatusWordAndWrite. -/
theorem witness_HostReadValues : ∀ n < 1024,
    (∃ s : State, HostReads s n [] ∧ s.busy = false) ∧ (∃ s : State, HostReads s n [] ∧ s.busy = true) := fun n hn =>
  ⟨⟨{ openState with inputs := [.read (BitVec.ofNat 12 (4 * n))] }, hostReads_of hn rfl rfl rfl, rfl⟩,
    ⟨{ busyState 0x32 .exec with inputs := [.read (BitVec.ofNat 12 (4 * n))] }, hostReads_of hn rfl rfl rfl, rfl⟩⟩

theorem witness_OperandWrites : ∀ n < 1024, ∀ v : Word,
    (∃ s : State, HostWrites s n v [] ∧ s.busy = false) ∧ (∃ s : State, HostWrites s n v [] ∧ s.busy = true) :=
  fun n hn v =>
  ⟨⟨{ openState with inputs := [.write (BitVec.ofNat 12 (4 * n)) v] }, hostWrites_of hn rfl rfl rfl, rfl⟩,
    ⟨{ busyState 0x32 .exec with inputs := [.write (BitVec.ofNat 12 (4 * n)) v] }, hostWrites_of hn rfl rfl rfl, rfl⟩⟩

theorem witness_ReservedAccess : ∀ n ∈ [0x0C, 0x7F, 0xFB, 0xFF, 0x300, 0x3FF, 9, 11, 0x200, 0x2FF],
    (∃ s : State, HostReads s n []) ∧ ∃ s : State, HostWrites s n 5 [] := by
  intro n hn
  have h : n < 1024 := by revert n; decide
  exact ⟨(witness_HostReadValues n h).1.imp fun _ => And.left, (witness_OperandWrites n h 5).1.imp fun _ => And.left⟩

theorem witness_BusyWritesAreIgnored : ∀ n ∈ [0, 1, 2, 8, 0x80, 0xFA, 0x100, 0x1FF],
    ∃ s : State, HostWrites s n 1 [] ∧ s.busy = true := by
  intro n hn
  exact (witness_OperandWrites n (by revert n; decide) 1).2

theorem witness_StatusWordAndWrite : ∃ s : State, HostWrites s 1 0x3A [] :=
  (witness_OperandWrites 1 (by omega) 0x3A).1.imp fun _ => And.left

theorem witness_BufferWrites : ∀ n ∈ [0x100 + 0, 0x100 + 255, 0x80 + 0, 0x80 + 122],
    ∃ s : State, s.busy = false ∧ HostWrites s n 0x12345678 [] := by
  intro n hn
  exact (witness_OperandWrites n (by revert n; decide) _).1.imp fun _ => And.symm

theorem witness_MisalignedAccessIsAligned :
    (∃ s : State, s.rstN = false) ∧ (∃ s : State, s.rstN = true ∧ transitionNow s = none) :=
  ⟨⟨{ State.reset with rstN := false }, rfl⟩, ⟨openState, rfl, rfl⟩⟩

/-- Reset asserted in the middle of a transmission; then every input while in reset. -/
theorem witness_ResetAbandonsEverything :
    (∃ s : State, HasTurn s (.rst false) []) ∧
    (∀ i : Input, ∃ s : State, s.rstN = false ∧ s.inputs = [i] ∧
      s = { State.reset with
        lineChar := s.lineChar, rstN := s.rstN, phyOk := s.phyOk, draws := s.draws, epoch := s.epoch,
        inputs := s.inputs, later := s.later }) :=
  ⟨⟨{ sendingFirst 0x32 with inputs := [.rst false] }, rfl, rfl, rfl⟩,
    fun i => ⟨{ State.reset with rstN := false, epoch := 3, inputs := [i] }, rfl, rfl, rfl⟩⟩

theorem witness_InterruptFollowsCompletion :
    (∃ s : State, MachineInv s ∧ s.rstN = true ∧ s.done = false ∧
      ∃ t, step s = .next t ∧ t.rstN = true ∧ t.done = true) ∧
    (∃ s : State, MachineInv s ∧ s.rstN = true ∧ s.done = true ∧
      ∃ t, step s = .next t ∧ t.rstN = true ∧ t.done = false ∧ t.busy = false) ∧
    (∃ s : State, MachineInv s ∧ s.rstN = true ∧ s.done = true ∧
      ∃ t, step s = .next t ∧ t.rstN = true ∧ t.done = false ∧ t.busy = true) :=
  ⟨⟨busyState 0x20 .exec, invCheck_sound (by decide +kernel), rfl, rfl, next_of_stepped (by decide +kernel)⟩,
    ⟨{ openState with done := true, inputs := [.write 4 2] }, invCheck_sound (by decide +kernel), rfl, rfl,
      next_of_stepped (by decide +kernel)⟩,
    ⟨{ openState with done := true, inputs := [.write 8 1] }, invCheck_sound (by decide +kernel), rfl, rfl,
      next_of_stepped (by decide +kernel)⟩⟩

theorem witness_EveryCommandEndsInCompletion :
    ∃ s : State, MachineInv s ∧ s.busy = true ∧
      ∃ t, step s = .next t ∧ t.rstN = true ∧ t.busy = false ∧ t.code ≠ .ok ∧ s.code = .ok :=
  ⟨busyState 0x20 .exec, invCheck_sound (by decide +kernel), rfl, next_of_stepped (by decide +kernel)⟩

theorem witness_OpenFlagOwners :
    (∃ s : State, s.rstN = true ∧ s.opened = false ∧ ∃ t, step s = .next t ∧ t.rstN = true ∧ t.opened = true) ∧
    (∃ s : State, s.rstN = true ∧ s.opened = true ∧ ∃ t, step s = .next t ∧ t.rstN = true ∧ t.opened = false) :=
  ⟨⟨{ busyState 0x30 .exec with opened := false }, rfl, rfl, next_of_stepped (by decide +kernel)⟩,
    ⟨busyState 0x31 .exec, rfl, rfl, next_of_stepped (by decide +kernel)⟩⟩

theorem witness_StickyFlags :
    (∃ s : State, s.rstN = true ∧ s.wbusy = true ∧ s.rxerr = true ∧ s.late = true ∧
      ∃ t, step s = .next t ∧ t.rstN = true ∧ t.wbusy = false ∧ t.rxerr = false ∧ t.late = false) ∧
    (∃ s : State, s.rstN = true ∧ s.wbusy = false ∧ ∃ t, step s = .next t ∧ t.rstN = true ∧ t.wbusy = true) ∧
    (∃ s : State, s.rstN = true ∧ s.rxerr = false ∧ ∃ t, step s = .next t ∧ t.rstN = true ∧ t.rxerr = true) ∧
    (∃ s : State, s.rstN = true ∧ s.late = false ∧ ∃ t, step s = .next t ∧ t.rstN = true ∧ t.late = true) :=
  ⟨⟨{ openState with wbusy := true, rxerr := true, late := true, inputs := [.write 4 0x38] }, rfl, rfl, rfl, rfl,
      next_of_stepped (by decide +kernel)⟩,
    ⟨{ busyState 0x32 .exec with inputs := [.write 8 1] }, rfl, rfl, next_of_stepped (by decide +kernel)⟩,
    ⟨{ busyState 0x32 .rxWait with lineChar := some { lastTick true with stop := false }, inputs := [.wait 1] },
      rfl, rfl, next_of_stepped (by decide +kernel)⟩,
    ⟨{ openState with lineChar := some (lastTick true), inputs := [.wait 1] }, rfl, rfl,
      next_of_stepped (by decide +kernel)⟩⟩

/-- A host write that changes each register, a command that changes CRC, one that changes REQ and TXLEN, the start of
XCHG, which changes RXLEN and RPLEN, a received character, and DEC. -/
theorem witness_RegisterOwners :
    (∀ n ∈ [0, 2, 3, 4, 5, 6, 7, 8], ∃ s : State, s.rstN = true ∧ ∃ t, step s = .next t ∧ t.rstN = true ∧
      (t.ie, t.cmd, t.arg, t.crc, t.timeout, t.silence, t.raddr, t.txlen) ≠
        (false, (0 : Word), (0 : Word), (0xFFFF : Half), (1000 : Half), (39 : Half), (0 : Byte), (8 : BitVec 9)) ∧
      HostWrites s n 0x55 [] ∧ s.busy = false) ∧
    (∃ s : State, s.rstN = true ∧ s.crc = 0xFFFF ∧ ∃ t, step s = .next t ∧ t.rstN = true ∧ t.crc ≠ 0xFFFF) ∧
    (∃ s : State, s.rstN = true ∧ s.raddr = 0 ∧ s.txlen = 8 ∧
      ∃ t, step s = .next t ∧ t.rstN = true ∧ t.raddr ≠ 0 ∧ t.txlen ≠ 8) ∧
    (∃ s : State, s.rstN = true ∧ s.rxlen = 7 ∧ s.rplen = 3 ∧
      ∃ t, step s = .next t ∧ t.rstN = true ∧ t.rxlen = 0 ∧ t.rplen = 0) ∧
    (∃ s : State, s.rstN = true ∧ s.rxlen = 7 ∧ ∃ t, step s = .next t ∧ t.rstN = true ∧ t.rxlen = 8) ∧
    (∃ s : State, s.rstN = true ∧ s.result = .clear ∧
      ∃ t, step s = .next t ∧ t.rstN = true ∧ t.result ≠ .clear ∧ t.rplen = 3) := by
  refine ⟨fun n hn => ?_, ⟨busyState 0x0102 .exec, rfl, rfl, next_of_stepped (by decide +kernel)⟩,
    ⟨busyState 0x0113 .exec, rfl, rfl, rfl, next_of_stepped (by decide +kernel)⟩,
    ⟨{ busyState 0x32 .exec with rxlen := 7, rplen := 3 }, rfl, rfl, rfl, next_of_stepped (by decide +kernel)⟩,
    ⟨{ receivedState with lineChar := some (lastTick true), inputs := [.wait 1] }, rfl, rfl,
      next_of_stepped (by decide +kernel)⟩,
    ⟨{ receivedState with cmd := 0x20, op := some 0x20, phase := .exec }, rfl, rfl,
      next_of_stepped (by decide +kernel)⟩⟩
  refine ⟨{ openState with inputs := [.write (BitVec.ofNat 12 (4 * n)) 0x55] }, rfl, ?_⟩
  obtain ⟨t, h1, h2, h3⟩ := next_of_stepped
    (s := { openState with inputs := [.write (BitVec.ofNat 12 (4 * n)) 0x55] })
    (P := fun t => t.rstN = true ∧ (t.ie, t.cmd, t.arg, t.crc, t.timeout, t.silence, t.raddr, t.txlen) ≠
        (false, (0 : Word), (0 : Word), (0xFFFF : Half), (1000 : Half), (39 : Half), (0 : Byte), (8 : BitVec 9)))
    (by revert n; decide +kernel)
  have hw : HostWrites { openState with inputs := [.write (BitVec.ofNat 12 (4 * n)) 0x55] } n 0x55 [] :=
    hostWrites_of (by clear h1; revert n; decide) rfl rfl rfl
  exact ⟨t, h1, h2, h3, hw, rfl⟩

/-- A host write and an encoder change TXBUF[0], a character changes RXBUF[7], a host write changes WVAL[122]. -/
theorem witness_BufferOwners :
    (∃ s : State, s.rstN = true ∧ txByte s 0 = 0x01 ∧ s.busy = false ∧
      ∃ t, step s = .next t ∧ t.rstN = true ∧ txByte t 0 ≠ 0x01) ∧
    (∃ s : State, s.rstN = true ∧ txByte s 0 = 0x01 ∧ s.phase = .exec ∧
      ∃ t, step s = .next t ∧ t.rstN = true ∧ txByte t 0 ≠ 0x01) ∧
    (∃ s : State, s.rstN = true ∧ rxByte s 7 = 0x77 ∧ ∃ t, step s = .next t ∧ t.rstN = true ∧ rxByte t 7 ≠ 0x77) ∧
    (∃ s : State, s.rstN = true ∧ wval s 122 = 0 ∧ ∃ t, step s = .next t ∧ t.rstN = true ∧ wval t 122 ≠ 0) :=
  ⟨⟨{ openState with inputs := [.write 0x400 0x55] }, rfl, by decide +kernel, rfl, next_of_stepped (by decide +kernel)⟩,
    ⟨busyState 0x0713 .exec, rfl, by decide +kernel, rfl, next_of_stepped (by decide +kernel)⟩,
    ⟨{ receivedState with
        mem := receivedState.mem ++ [(rxOffset 7, 0x77)], lineChar := some (lastTick true), inputs := [.wait 1] },
      rfl, by decide +kernel, next_of_stepped (by decide +kernel)⟩,
    ⟨{ openState with mem := setWval 122 0 [], inputs := [.write 0x3E8 0x1234] }, rfl, by decide +kernel,
      next_of_stepped (by decide +kernel)⟩⟩

/-- OPEN on an open port; a host access and a wait while OPEN on a closed port is pending; a change of the pin. -/
theorem witness_PhyOkMattersOnlyToOpen :
    (∃ s : State, (∃ t, step s = .next t ∧ t.opened = true) ∧ s.phase = .exec ∧
      (∃ x y, decode s.cmd = .ok (.openPort x y)) ∧
      ¬(s.rstN = true ∧ s.phase = .exec ∧ (s.inputs = [] ∨ ∃ rest, s.inputs = .engine :: rest) ∧
        s.opened = false ∧ ∃ x y, decode s.cmd = .ok (.openPort x y)) ∧
      ∀ l rest, s.inputs ≠ .phy l :: rest) ∧
    (∀ i ∈ [Input.read 4, .write 0 1, .wait 1, .charStart 0x01 true true], ∃ s : State,
      (∃ t, step s = .next t ∧ t.phase = .exec) ∧ s.opened = false ∧ decode s.cmd = .ok (.openPort 0 0) ∧
      ¬(s.rstN = true ∧ s.phase = .exec ∧ (s.inputs = [] ∨ ∃ rest, s.inputs = .engine :: rest) ∧
        s.opened = false ∧ ∃ x y, decode s.cmd = .ok (.openPort x y)) ∧
      ∀ l rest, s.inputs ≠ .phy l :: rest) ∧
    (∀ l : Bool, ∃ s : State, HasTurn s (.phy l) [] ∧ s.opened = true) := by
  refine ⟨⟨busyState 0x30 .exec, next_of_stepped (by decide +kernel), rfl, ⟨0, 0, by decide⟩,
    fun h => absurd h.2.2.2.1 (by decide), fun l rest h => by cases h⟩, fun i hi => ?_,
    fun l => ⟨{ openState with inputs := [.phy l] }, ⟨rfl, rfl, rfl⟩, rfl⟩⟩
  simp only [List.mem_cons, List.not_mem_nil, or_false] at hi
  refine ⟨{ busyState 0x30 .exec with opened := false, inputs := [i] }, ?_, rfl,
    (by decide : decode 0x30 = .ok (.openPort 0 0)), ?_, ?_⟩
  · rcases hi with rfl | rfl | rfl | rfl <;> exact next_of_stepped (by decide +kernel)
  · rcases hi with rfl | rfl | rfl | rfl <;> rintro ⟨_, _, h | ⟨rest, h⟩, _⟩ <;> cases h
  · rcases hi with rfl | rfl | rfl | rfl <;> intro l rest h <;> cases h

theorem witness_HalfDuplexPins :
    (∃ s : State, MachineInv s ∧ s.phase ≠ .tx ∧ reN s = false) ∧ (∃ s : State, MachineInv s ∧ s.phase = .tx) ∧
      (∃ s c, MachineInv s ∧ reN s = true ∧ s.lineChar = some c) :=
  ⟨⟨openState, invCheck_sound (by decide +kernel), by decide, by decide⟩,
    ⟨sendingFirst 0x32, invCheck_sound (by decide +kernel), rfl⟩,
    ⟨{ openState with opened := false, lineChar := some (lastTick false) }, _, invCheck_sound (by decide +kernel), rfl,
      rfl⟩⟩

theorem witness_StepKeepsInvariant :
    ∃ s : State, MachineInv s ∧ ∃ t, step s = .next t ∧ t.phase = .idle ∧ t.code = .ok ∧ t.rxlen = 7 :=
  ⟨{ receivedState with idle := 195 }, invCheck_sound (by decide +kernel), next_of_stepped (by decide +kernel)⟩

/-- Characters on both lines and a closed port; an unheard character that ends; the silence in WAIT_IDLE and in
RX_ACTIVE, and the timeout, each reached at the end of the wait and before it. -/
theorem witness_TimersCount :
    (∃ s c x, HasTurn s (.wait 1) [] ∧ s.opened = false ∧ s.lineChar = some c ∧ c.elapsed + 1 < 55 ∧
      s.txShift = some x ∧ x.elapsed + 1 < 55 ∧ s.phase ≠ .waitIdle ∧ s.phase ≠ .rxActive ∧ s.phase ≠ .rxWait) ∧
    (∀ w ∈ [1, 2], ∃ s c, HasTurn s (.wait w) [] ∧ s.lineChar = some c ∧ c.heard = false ∧ c.elapsed + 1 = 55 ∧
      s.txShift = none ∧ s.phase = .waitIdle) ∧
    (∀ w ∈ [195, 196], ∃ s : State, HasTurn s (.wait w) [] ∧ s.opened = true ∧ s.lineChar = none ∧ s.txShift = none ∧
      s.phase = .waitIdle ∧ s.idle + 195 = s.silence.toNat * 5) ∧
    (∀ w ∈ [195, 196], ∃ s : State, HasTurn s (.wait w) [] ∧ s.opened = true ∧ s.lineChar = none ∧ s.txShift = none ∧
      s.phase = .rxActive ∧ s.idle + 195 = s.silence.toNat * 5 ∧ s.resp + 195 ≤ s.timeout.toNat * 48) ∧
    (∀ w ∈ [48000, 48001], ∃ s : State, HasTurn s (.wait w) [] ∧ s.opened = true ∧ s.lineChar = none ∧
      s.txShift = none ∧ s.phase = .rxWait ∧ s.resp + 48000 = s.timeout.toNat * 48) :=
  ⟨⟨{ sendingFirst 0x32 with
        opened := false, lineChar := some { lastTick false with elapsed := 53 }, inputs := [.wait 1] },
      _, _, ⟨rfl, rfl, rfl⟩, rfl, rfl, by decide, rfl, by decide, by decide⟩,
    fun w _ => ⟨{ busyState 0x32 .waitIdle with lineChar := some (lastTick false), inputs := [.wait w] }, _,
      ⟨rfl, rfl, rfl⟩, rfl, rfl, rfl, rfl, rfl⟩,
    fun w _ => ⟨{ busyState 0x32 .waitIdle with inputs := [.wait w] }, ⟨rfl, by revert w; decide +kernel, rfl⟩, rfl, by revert w; decide⟩,
    fun w _ => ⟨{ receivedState with inputs := [.wait w] }, ⟨rfl, by revert w; decide +kernel, rfl⟩, rfl, by revert w; decide⟩,
    fun w _ => ⟨{ busyState 0x32 .rxWait with inputs := [.wait w] }, ⟨rfl, by revert w; decide +kernel, rfl⟩, rfl, by revert w; decide⟩⟩

end Sys2Proof.Tests
end

section
/-! SUPPORT. The commands by family: what each can write before it ends. -/

namespace Sys2Proof.Machine

open Sys2Proof.Safety

/-- What RESULT and RPLEN are after a decode of RXBUF[0..RXLEN) (R42, R43, R106). -/
def HeaderOf (s : State) (r : DecodedHeader) (len : Nat) : Prop :=
  (r.kind ≠ .exception → r.excode = 0) ∧
    (if r.kind = .none then r = .clear ∧ len = 0 else len + 4 = s.rxlen.toNat)

/-- A command `i` run from `s` ends in `t`, by the family of `i`. -/
inductive Ran (i : Instr) (s : State) : State → Prop where
  /-- The command ends and writes nothing else. -/
  | nothing (c : ResultCode) : Ran i s (complete c s)
  /-- A CRC command writes CRC. -/
  | crc (c : ResultCode) (v : Half) (hi : (opcodeOf i).toNat ∈ [0x01, 0x02, 0x03, 0x04]) :
      Ran i s (complete c { s with crc := v })
  /-- An encoder writes TXBUF, TXLEN and REQ. -/
  | encoder (m : Memory) (n : BitVec 9) (a f : Byte) (hi : (opcodeOf i).toNat ∈ [0x10, 0x11, 0x12, 0x13])
      (hwf : s.mem.wf = true → m.wf = true) (hmap : InMap s.mem → InMap m) :
      Ran i s (complete .ok { s with mem := m, txlen := n, raddr := a, rfunc := f })
  /-- DEC and CHK write RESULT and RPLEN. -/
  | decoder (c : ResultCode) (r : DecodedHeader) (len : Nat) (hi : (opcodeOf i).toNat ∈ [0x20, 0x21])
      (hh : HeaderOf s r len) : Ran i s (complete c (setResult r len s))
  /-- OPEN opens a closed port. -/
  | opens (a b : Byte) (hi : i = .openPort a b) (ho : s.opened = false) :
      Ran i s (complete .ok { s with opened := true, idle := 0 })
  /-- CLOSE closes the port. -/
  | closes (a b : Byte) (hi : i = .closePort a b) :
      Ran i s (complete .ok (cutReception { s with opened := false }))
  /-- XCHG and SEND start their wait for silence. -/
  | starts (o : Bool) (hi : (opcodeOf i).toNat ∈ [0x32, 0x33]) (ho : s.opened = true)
      (hl : txlenInvalid s = false) (hx : opcodeOf i = 0x32 → o = false) :
      Ran i s (startExchange { s with ovf := o })

/-- The payload length of a frame that decodes (R103). -/
theorem decodeFrame_length {bs : List Byte} {a f e : Byte} {n : Nat}
    (h : decodeFrame bs = .exception a f e n ∨ decodeFrame bs = .data a f n) : n + 4 = bs.length := by
  simp only [decodeFrame, Config.minFrame] at h
  split at h
  · simp at h
  · split at h
    · simp at h
    · split at h
      all_goals
        simp at h
        omega

/-- The decode writes RESULT and RPLEN and nothing else, consistently with RXLEN. -/
theorem decodeReceived_header (s : State) :
    ∃ r len, (decodeReceived s).1 = setResult r len s ∧ HeaderOf s r len := by
  unfold decodeReceived
  split
  · exact ⟨_, _, rfl, by simp [HeaderOf, DecodedHeader.clear]⟩
  · exact ⟨_, _, rfl, by simp [HeaderOf, DecodedHeader.clear]⟩
  · next h => exact ⟨_, _, rfl, by simpa [HeaderOf] using decodeFrame_length (.inl h)⟩
  · next h => exact ⟨_, _, rfl, by simpa [HeaderOf] using decodeFrame_length (e := 0) (.inr h)⟩

/-- A template encoder with a payload that fits keeps memory canonical and inside the map. -/
theorem encodePayload_ran {i : Instr} (hi : (opcodeOf i).toNat ∈ [0x10, 0x11, 0x12, 0x13]) (a f : Byte)
    {payload : List Byte} (hl : payload.length ≤ 252) {s t : State} (h : encodePayload a f payload s = .next t) :
    Ran i s t := by
  rw [encodePayload_eq] at h
  cases h
  refine .encoder _ _ a f hi (fun hw => ?_) (fun hm => ?_)
  · exact emitMem_wf (Memory.setTx_wf _ hw _) a f _
  · exact InMap.emitMem (InMap.setTx hm (by omega)) a f hl

/-- Every command does what its family does. -/
theorem exec_ran {i : Instr} {s t : State} (h : exec i s = .next t) : Ran i s t := by
  cases i with
  | crcInit => cases h; exact .crc _ _ (by simp [opcodeOf])
  | crcByte => cases h; exact .crc _ _ (by simp [opcodeOf])
  | crcTx =>
    simp only [exec, execCrcTx] at h
    split at h <;> cases h
    · exact .nothing _
    · exact .crc _ _ (by simp [opcodeOf])
  | crcRx =>
    simp only [exec, execCrcRx] at h
    split at h <;> cases h
    · exact .nothing _
    · exact .crc _ _ (by simp [opcodeOf])
  | encRaw a f =>
    simp only [exec, execEncRaw] at h
    split at h
    · cases h; exact .nothing _
    · split at h
      · cases h; exact .nothing _
      · next hl =>
        have hp : (argB s).toNat ≤ 252 := ((rawLengthError_eq_false _ _ _).1 (by simpa using hl)).1
        cases h
        exact .encoder _ _ a f (by simp [opcodeOf]) (fun hw => emitMem_wf hw a f _) (fun hm => InMap.emitMem hm a f hp)
  | encRhr a =>
    simp only [exec, execEncRhr] at h
    split at h
    · cases h; exact .nothing _
    · exact encodePayload_ran (by simp [opcodeOf]) a _ (by simp [rhrPayload, bigEndian]) h
  | encWmr a =>
    simp only [exec, execEncWmr] at h
    split at h
    · cases h; exact .nothing _
    · split at h
      · cases h; exact .nothing _
      · next hc =>
        exact encodePayload_ran (by simp [opcodeOf]) a _ (by simp only [wmrPayload_length, Config.wvalWords] at hc ⊢; omega) h
  | encUnl a =>
    simp only [exec, execEncUnl] at h
    split at h
    · cases h; exact .nothing _
    · exact encodePayload_ran (by simp [opcodeOf]) a _ (by decide) h
  | dec =>
    obtain ⟨r, len, hd, hh⟩ := decodeReceived_header s
    simp only [exec, execDec, hd] at h
    cases h
    exact .decoder _ r len (by simp [opcodeOf]) hh
  | chk =>
    obtain ⟨r, len, hd, hh⟩ := decodeReceived_header s
    simp only [exec, execChk] at h
    split at h
    all_goals
      next he =>
        simp only [he] at hd
        subst hd
        cases h
        exact .decoder _ r len (by simp [opcodeOf]) hh
  | openPort a b =>
    simp only [exec, execOpenPort] at h
    split at h
    · cases h; exact .nothing _
    · next ho =>
      split at h <;> cases h
      · exact .nothing _
      · exact .opens a b rfl (by simpa using ho)
  | closePort a b => cases h; exact .closes a b rfl
  | xchg =>
    simp only [exec, execXchg] at h
    split at h
    · cases h; exact .nothing _
    · next ho =>
      split at h <;> cases h
      · exact .nothing _
      · next hl => exact .starts false (by simp [opcodeOf]) (by simpa using ho) (by simpa using hl) (fun _ => rfl)
  | send =>
    simp only [exec, execSend] at h
    split at h
    · cases h; exact .nothing _
    · next ho =>
      split at h <;> cases h
      · exact .nothing _
      · next hl =>
        exact .starts s.ovf (by simp [opcodeOf]) (by simpa using ho) (by simpa using hl) (fun hx => by simp [opcodeOf] at hx)

end Sys2Proof.Machine
end
section
/-! SUPPORT. The invariant, operation by operation: completion, the receiver, the transmitter, time, the host's writes,
the commands and reset. -/

namespace Sys2Proof.Machine

open Sys2Proof.Safety

/-- Outside phase TX nothing is being sent, and a character is heard only on an open port. -/
theorem MachineInv.line_of_not_tx {s : State} (h : MachineInv s) (hp : s.phase ≠ .tx) :
    s.txShift = none ∧
      ∀ l, s.lineChar = some l → l.elapsed < 55 ∧ (l.heard = true → s.opened = true) := by
  refine ⟨by simpa [hp] using h.sending, fun l hl => ?_⟩
  obtain ⟨he, hh⟩ := h.onRxd l hl
  exact ⟨he, fun hx => by simpa [rxEnabled, reN, hp] using hh hx⟩

/-- With BUSY = 0 the engine is idle and nothing is being sent. -/
theorem MachineInv.idle_of_not_busy {s : State} (h : MachineInv s) (hb : s.busy = false) :
    s.phase = .idle ∧ s.txShift = none := by
  have hp : s.phase = .idle := by simpa [hb] using h.busyIffPhase
  exact ⟨hp, (MachineInv.line_of_not_tx h (by simp [hp])).1⟩

/-- A command may end in any phase but TX. -/
theorem MachineInv.complete {s : State} (h : MachineInv s) (hr : s.rstN = true) (hp : s.phase ≠ .tx)
    (c : ResultCode) : MachineInv (complete c s) := by
  obtain ⟨hx, hl⟩ := MachineInv.line_of_not_tx h hp
  exact MachineInv.of_complete c h.memCanonical h.memInMap h.silenceLegal h.rxlenLegal hx hl h.payloadLength h.exceptionCode hr

/-! ### The receiver -/

/-- Another character on `rxd`, or none. -/
theorem MachineInv.withLineChar {s : State} (h : MachineInv s) {lc : Option LineChar}
    (hlc : ∀ c, lc = some c → c.elapsed < 55 ∧ (c.heard = true → rxEnabled s = true)) :
    MachineInv { s with lineChar := lc } :=
  { h with onRxd := hlc, inReset := fun hr => by rw [h.inReset hr] }

/-- RXLEN counts up to 256 (R114). -/
theorem storeChar_rxlen_toNat (d : Byte) (ok : Bool) (s : State) :
    (storeChar d ok s).rxlen.toNat = if s.rxlen.toNat < 256 then s.rxlen.toNat + 1 else s.rxlen.toNat := by
  by_cases hf : s.rxlen.toNat < 256
  · simp [rxFits, hf]
    omega
  · simp [rxFits, hf]

/-- With RXBUF full RXLEN stays (R114). -/
theorem storeChar_rxlen_full (d : Byte) (ok : Bool) {s : State} (h : ¬s.rxlen.toNat < 256) :
    (storeChar d ok s).rxlen = s.rxlen := by
  simp [rxFits, h]

/-- A character received while a response is awaited. -/
theorem MachineInv.storeChar {s : State} (h : MachineInv s) (hr : s.rstN = true)
    (hp : receiving s.phase = true) (hl : s.lineChar = none) (d : Byte) (ok : Bool) :
    MachineInv (storeChar d ok s) := by
  have hphase : s.phase = .rxWait ∨ s.phase = .rxActive := by
    cases hph : s.phase <;> simp [hph, receiving] at hp ⊢
  have hon : onLine s.phase = true := by rcases hphase with hph | hph <;> simp [hph, onLine]
  have hx := (MachineInv.line_of_not_tx h (by rcases hphase with hph | hph <;> simp [hph])).1
  have hxchg := h.xchgReceives hp
  obtain ⟨-, -, -, -, hres, hrp⟩ := h.lineCommand hon
  have hbusy : s.busy = true := h.busyIffPhase.2 (by rcases hphase with hph | hph <;> simp [hph])
  have hlen := storeChar_rxlen_toNat d ok s
  have hovf : s.ovf = true → s.rxlen.toNat = 256 := by
    rcases hphase with hph | hph
    · simp [(h.nothingReceived (by simp [hph, beforeReception])).2 hxchg]
    · exact (h.active hph).2
  have hle := h.rxlenLegal
  exact {
    memCanonical := storeChar_wf h.memCanonical d ok
    memInMap := InMap.storeChar h.memInMap d ok
    busyIffPhase := by simp [hbusy]
    opOfCmd := h.opOfCmd
    notDoneWhileBusy := h.notDoneWhileBusy
    silenceLegal := h.silenceLegal
    rxlenLegal := by rw [hlen]; split <;> omega
    lineCommand := fun _ => h.lineCommand hon
    nothingReceived := by simp [beforeReception]
    xchgReceives := fun _ => hxchg
    active := fun _ => by
      rw [hlen]
      by_cases hf : s.rxlen.toNat < 256
      · simp only [hf, if_true, storeChar_ovf, rxFits]
        refine ⟨by omega, fun ho => ?_⟩
        simp at ho
        exact absurd (hovf ho) (by omega)
      · simp only [hf, if_false]
        omega
    sending := by simp [hx]
    sent := by simp [hx]
    onRxd := by simp [hl]
    payloadLength := by simp [hres, hrp, DecodedHeader.clear]
    exceptionCode := h.exceptionCode
    inReset := by simp [hr] }

/-- Ticks on `rxd`. -/
theorem MachineInv.advanceRx {s : State} (h : MachineInv s) (hr : s.rstN = true) (n : Nat) :
    MachineInv (advanceRx n s) := by
  have hdrop : MachineInv { s with lineChar := none } := MachineInv.withLineChar h (by simp)
  unfold Machine.advanceRx
  split
  · exact h
  · next c hc =>
    split
    · next hlt =>
      refine MachineInv.withLineChar h fun c' hc' => ?_
      cases hc'
      exact ⟨hlt, (h.onRxd c hc).2⟩
    · split
      · unfold receiveChar
        split
        · next hp => exact MachineInv.storeChar hdrop hr (congrArg receiving hp) rfl _ _
        · next hp => exact MachineInv.storeChar hdrop hr (congrArg receiving hp) rfl _ _
        all_goals exact MachineInv.of_agree hdrop hr rfl
      · exact hdrop

/-! ### The transmitter -/

/-- The next character of the frame. -/
theorem MachineInv.loadChar {s : State} (h : MachineInv s) (hr : s.rstN = true) (hp : s.phase = .tx)
    (hk : s.k < s.txlen.toNat) : MachineInv (loadChar s) :=
  { h with
    sending := by simp [hp]
    sent := by
      intro x hx
      cases hx
      exact ⟨by simp, hk, by simp, rfl⟩
    inReset := by simp [hr] }

/-- Phase TX begins with the first character. -/
theorem MachineInv.beginTx {s : State} (h : MachineInv s) (hr : s.rstN = true) (hp : s.phase = .waitIdle) :
    MachineInv (beginTx s) := by
  have hline := h.lineCommand (by simp [hp, onLine])
  have hlen := hline.2.1
  have hlc := (MachineInv.line_of_not_tx h (by simp [hp])).2
  exact {
    memCanonical := h.memCanonical
    memInMap := h.memInMap
    busyIffPhase := by simpa [Machine.beginTx, hp] using h.busyIffPhase
    opOfCmd := h.opOfCmd
    notDoneWhileBusy := h.notDoneWhileBusy
    silenceLegal := h.silenceLegal
    rxlenLegal := h.rxlenLegal
    lineCommand := fun _ => hline
    nothingReceived := fun _ => h.nothingReceived (by simp [hp, beforeReception])
    xchgReceives := by simp [Machine.beginTx, receiving]
    active := by simp [Machine.beginTx]
    sending := by simp [Machine.beginTx]
    sent := by
      intro x hx
      cases hx
      exact ⟨by simp [Machine.beginTx], hlen, by simp, rfl⟩
    onRxd := by
      intro c hc
      obtain ⟨l, hl, rfl⟩ := Option.map_eq_some_iff.1 hc
      exact ⟨(hlc l hl).1, by simp⟩
    payloadLength := h.payloadLength
    exceptionCode := h.exceptionCode
    inReset := by simp [Machine.beginTx, hr] }

/-- The last character of the frame ends. -/
theorem MachineInv.endTx {s : State} (h : MachineInv s) (hr : s.rstN = true) (hp : s.phase = .tx) :
    MachineInv (endTx s) := by
  have hline := h.lineCommand (by simp [hp, onLine])
  have ⟨hopen, _, _, hop, _⟩ := hline
  have hunheard : ∀ l, s.lineChar = some l → l.elapsed < 55 ∧ l.heard = false := fun l hl => by
    simpa [rxEnabled, reN, hp] using h.onRxd l hl
  unfold Machine.endTx
  split
  · exact MachineInv.of_complete .ok h.memCanonical h.memInMap h.silenceLegal h.rxlenLegal rfl
      (fun l hl => ⟨(hunheard l hl).1, fun _ => hopen⟩) h.payloadLength h.exceptionCode hr
  · next hsend =>
    exact {
      memCanonical := h.memCanonical
      memInMap := h.memInMap
      busyIffPhase := by simpa [hp] using h.busyIffPhase
      opOfCmd := h.opOfCmd
      notDoneWhileBusy := h.notDoneWhileBusy
      silenceLegal := h.silenceLegal
      rxlenLegal := h.rxlenLegal
      lineCommand := fun _ => hline
      nothingReceived := fun _ => h.nothingReceived (by simp [hp, beforeReception])
      xchgReceives := fun _ => hop.resolve_right hsend
      active := by simp
      sending := by simp
      sent := by simp
      onRxd := fun l hl => ⟨(hunheard l hl).1, fun hh => by simp [(hunheard l hl).2] at hh⟩
      payloadLength := h.payloadLength
      exceptionCode := h.exceptionCode
      inReset := by simp [hr] }

/-- Ticks on `txd`. -/
theorem MachineInv.advanceTx {s : State} (h : MachineInv s) (hr : s.rstN = true) (n : Nat) :
    MachineInv (advanceTx n s) := by
  unfold Machine.advanceTx
  split
  · exact h
  · next x hx =>
    have hp : s.phase = .tx := h.sending.2 (by simp [hx])
    obtain ⟨hk1, hk2, -, hbits⟩ := h.sent x hx
    split
    · next hlt =>
      exact {
        h with
        sending := by simp [hp]
        sent := by
          intro y hy
          cases hy
          exact ⟨hk1, hk2, hlt, hbits⟩
        inReset := by simp [hr] }
    · have h0 : MachineInv { s with idle := 0 } := MachineInv.of_agree h hr rfl
      unfold endChar
      split
      · next hk => exact MachineInv.loadChar h0 hr hp hk
      · exact MachineInv.endTx h0 hr hp

/-- Time passing. -/
theorem MachineInv.advance {s : State} (h : MachineInv s) (hr : s.rstN = true) (n : Nat) :
    MachineInv (advance n s) := by
  have ht : MachineInv (advanceTimers n s) := MachineInv.of_agree h hr rfl
  exact MachineInv.advanceTx (MachineInv.advanceRx ht hr n) (by simpa using hr) n

/-- A wait. -/
theorem MachineInv.passTime {s : State} (h : MachineInv s) (hr : s.rstN = true) (n : Nat) :
    MachineInv (passTime n s) := by
  have hi : MachineInv { s with inputs := remainingWait (n - min n ((nextEvent s).getD n)) s.inputs } :=
    MachineInv.inputs h _
  exact MachineInv.advance hi hr _

/-- A character begins on `rxd`. -/
theorem MachineInv.startChar {s : State} (h : MachineInv s) (d : Byte) (p q : Bool) :
    MachineInv (startChar d p q s) := by
  unfold Machine.startChar
  split
  · exact h
  · refine MachineInv.withLineChar h fun c hc => ?_
    cases hc
    exact ⟨by simp, fun hh => (Bool.and_eq_true _ _ ▸ hh).2⟩

/-! ### The host -/

/-- A write to an operand register or buffer entry. -/
theorem MachineInv.unlessBusy {s t : State} (h : MachineInv s) (hr : s.rstN = true)
    (ht : s.busy = false → MachineInv t) : MachineInv (unlessBusy s t) := by
  unfold Machine.unlessBusy
  split
  · exact MachineInv.of_agree h hr rfl
  · next hb => exact ht (by simpa using hb)

/-- A write to a buffer with BUSY = 0. -/
theorem MachineInv.withMem {s : State} (h : MachineInv s) (hr : s.rstN = true) (hb : s.busy = false) {m : Memory}
    (hwf : m.wf = true) (hm : InMap m) : MachineInv (withMem m s) :=
  { h with
    memCanonical := hwf
    memInMap := hm
    sent := by simp [(MachineInv.idle_of_not_busy h hb).2]
    inReset := by simp [hr] }

/-- A command is accepted. -/
theorem MachineInv.accept {s : State} (h : MachineInv s) (hr : s.rstN = true) (hb : s.busy = false) (w : Word) :
    MachineInv (accept w s) := by
  obtain ⟨hp, hx⟩ := MachineInv.idle_of_not_busy h hb
  have hl := (MachineInv.line_of_not_tx h (by simp [hp])).2
  exact {
    h with
    busyIffPhase := by simp
    opOfCmd := by simp
    notDoneWhileBusy := by simp
    lineCommand := by simp [onLine]
    nothingReceived := by simp [beforeReception]
    xchgReceives := by simp [receiving]
    active := by simp
    sending := by simp [hx]
    onRxd := fun l hc => ⟨(hl l hc).1, fun hh => by simp [rxEnabled, reN, (hl l hc).2 hh]⟩
    inReset := by simp [hr] }

/-- SILENCE never stores 0 (R38). -/
theorem legalSilence_ne_zero (v : Half) : legalSilence v ≠ 0 := by
  unfold legalSilence
  split
  · decide
  · assumption

/-- A host write. -/
theorem MachineInv.hostWrite {s : State} (h : MachineInv s) (hr : s.rstN = true) (p : BitVec 12) (v : Word) :
    MachineInv (hostWrite p v s) := by
  unfold Machine.hostWrite
  cases hp : hostRegAt p with
  | status => exact { h with notDoneWhileBusy := fun hb => by simp [h.notDoneWhileBusy hb], inReset := by simp [hr] }
  | cmd => exact MachineInv.unlessBusy h hr fun hb => MachineInv.accept h hr hb v
  | silence =>
    exact MachineInv.unlessBusy h hr fun _ =>
      { h with silenceLegal := legalSilence_ne_zero _, inReset := by simp [hr] }
  | txlen =>
    refine MachineInv.unlessBusy h hr fun hb => ?_
    obtain ⟨hph, hx⟩ := MachineInv.idle_of_not_busy h hb
    exact { h with lineCommand := by simp [hph, onLine], sent := by simp [hx], inReset := by simp [hr] }
  | wval i =>
    exact MachineInv.unlessBusy h hr fun hb => MachineInv.withMem h hr hb (setWval_wf h.memCanonical _ _)
      (InMap.setWval h.memInMap (hostRegAt_wval_lt hp) _)
  | txbuf i =>
    exact MachineInv.unlessBusy h hr fun hb => MachineInv.withMem h hr hb (Memory.set_wf h.memCanonical _ _)
      (InMap.set h.memInMap (txOffset_isBuffer (hostRegAt_txbuf_lt hp)) _)
  | ctrl => exact MachineInv.of_agree h hr rfl
  | arg | crc | timeout | req => exact MachineInv.unlessBusy h hr fun _ => MachineInv.of_agree h hr rfl
  | rxlen | result | rplen | rxbuf | reserved => exact h

/-- A host read. -/
theorem MachineInv.hostRead {s : State} (h : MachineInv s) (hr : s.rstN = true) (p : BitVec 12) :
    MachineInv (hostRead p s) := by
  unfold Machine.hostRead
  split <;> exact MachineInv.of_agree h hr rfl

/-! ### The engine -/

/-- The exchange starts. -/
theorem MachineInv.startExchange {s : State} (h : MachineInv s) (hr : s.rstN = true) (hp : s.phase = .exec)
    (ho : s.opened = true) (hl : txlenInvalid s = false) (hop : s.op = some 0x32 ∨ s.op = some 0x33) {o : Bool}
    (hx : s.op = some 0x32 → o = false) : MachineInv (startExchange { s with ovf := o }) := by
  obtain ⟨htx, hlc⟩ := MachineInv.line_of_not_tx h (by simp [hp])
  simp only [txlenInvalid, Config.bufBytes, Bool.or_eq_false_iff, decide_eq_false_iff_not] at hl
  exact {
    memCanonical := h.memCanonical
    memInMap := h.memInMap
    busyIffPhase := by simpa [hp] using h.busyIffPhase
    opOfCmd := h.opOfCmd
    notDoneWhileBusy := h.notDoneWhileBusy
    silenceLegal := h.silenceLegal
    rxlenLegal := by simp
    lineCommand := fun _ => ⟨ho, by simp; omega, by simp; omega, hop, rfl, rfl⟩
    nothingReceived := fun _ => ⟨rfl, hx⟩
    xchgReceives := by simp [receiving]
    active := by simp
    sending := by simp [htx]
    sent := by simp [htx]
    onRxd := fun l hc => ⟨(hlc l hc).1, fun _ => by simp [rxEnabled, reN, ho]⟩
    payloadLength := by simp [DecodedHeader.clear]
    exceptionCode := fun _ => rfl
    inReset := by simp [hr] }

/-- A command in phase EXEC. -/
theorem MachineInv.ran {s t : State} {i : Instr} (h : MachineInv s) (hr : s.rstN = true) (hp : s.phase = .exec)
    (hd : decode s.cmd = .ok i) (ht : Ran i s t) : MachineInv t := by
  have hne : s.phase ≠ .tx := by simp [hp]
  obtain ⟨hx, hl⟩ := MachineInv.line_of_not_tx h hne
  cases ht with
  | nothing c => exact MachineInv.complete h hr hne c
  | crc c v =>
    have hv : MachineInv { s with crc := v } := MachineInv.of_agree h hr rfl
    exact MachineInv.complete hv hr hne c
  | encoder m n a f hi hwf hmap =>
    exact MachineInv.of_complete .ok (hwf h.memCanonical) (hmap h.memInMap) h.silenceLegal h.rxlenLegal hx hl h.payloadLength
      h.exceptionCode hr
  | decoder c r len hi hh =>
    obtain ⟨hex, hlen⟩ := hh
    refine MachineInv.of_complete c h.memCanonical h.memInMap h.silenceLegal h.rxlenLegal hx hl ?_ hex hr
    have hle := h.rxlenLegal
    split at hlen
    · next hk => simp [hlen.1, hlen.2, DecodedHeader.clear]
    · next hk => simp [hk]; omega
  | opens =>
    exact MachineInv.of_complete .ok h.memCanonical h.memInMap h.silenceLegal h.rxlenLegal hx
      (fun l hc => ⟨(hl l hc).1, fun _ => rfl⟩) h.payloadLength h.exceptionCode hr
  | closes =>
    refine MachineInv.of_complete .ok h.memCanonical h.memInMap h.silenceLegal h.rxlenLegal hx (fun c hc => ?_)
      h.payloadLength h.exceptionCode hr
    obtain ⟨l, hl', rfl⟩ := Option.map_eq_some_iff.1 hc
    exact ⟨(hl l hl').1, by simp⟩
  | starts o hi ho hlen hxchg =>
    have hop : s.op = some (opcodeOf i) := by
      rw [h.opOfCmd, if_pos (h.busyIffPhase.2 (by simp [hp])), fieldOp_of_decode hd]
    refine MachineInv.startExchange h hr hp ho hlen ?_ (fun ho => hxchg (by simpa [hop] using ho))
    simpa [hop, ← BitVec.toNat_inj] using hi

/-- The engine's move. -/
theorem MachineInv.engineMove {s t : State} (h : MachineInv s) (hr : s.rstN = true)
    (hm : engineMove s = .next t) : MachineInv t := by
  rcases engineMove_cases hm with ⟨-, rfl⟩ | ⟨hp, i, hd, he⟩ | ⟨hp, -, rfl⟩
  · exact h
  · exact MachineInv.ran h hr hp hd (exec_ran he)
  · exact MachineInv.complete h hr (by simp [hp]) _

/-- A timed transition. -/
theorem MachineInv.transitionNow {s t : State} (h : MachineInv s) (hr : s.rstN = true)
    (ht : transitionNow s = some t) : MachineInv t := by
  rcases transitionNow_cases ht with ⟨hp, -, rfl⟩ | ⟨hp, -, rfl⟩ | ⟨hp, -, rfl⟩
  · exact MachineInv.beginTx h hr hp
  · exact MachineInv.complete h hr (by simp [hp]) _
  · exact MachineInv.complete h hr (by simp [hp]) _

/-! ### Reset -/

/-- Reset, at either level of `rst_n`. -/
theorem MachineInv.resetBlock {s : State} (h : MachineInv s) (b : Bool) :
    MachineInv { resetBlock s with rstN := b } where
  memCanonical := rfl
  memInMap := by simp [Machine.resetBlock, State.reset]
  busyIffPhase := by simp [Machine.resetBlock, State.reset]
  opOfCmd := rfl
  notDoneWhileBusy := fun _ => rfl
  silenceLegal := (by decide : State.reset.silence ≠ 0)
  rxlenLegal := by simp [Machine.resetBlock, State.reset]
  lineCommand := by simp [Machine.resetBlock, State.reset, onLine]
  nothingReceived := by simp [Machine.resetBlock, State.reset, beforeReception]
  xchgReceives := by simp [Machine.resetBlock, State.reset, receiving]
  active := by simp [Machine.resetBlock, State.reset]
  sending := by simp [Machine.resetBlock, State.reset]
  sent := by simp [Machine.resetBlock, State.reset]
  onRxd := by
    intro c hc
    obtain ⟨l, hl, rfl⟩ := Option.map_eq_some_iff.1 hc
    exact ⟨(h.onRxd l hl).1, by simp⟩
  payloadLength := ⟨rfl, rfl⟩
  exceptionCode := fun _ => rfl
  inReset := by rintro rfl; rfl

/-- Ticks on `rxd` in which no heard character ends: the character there goes on, or is gone. -/
theorem advanceRx_of_no_reception {s : State} {n : Nat}
    (h : ∀ c, s.lineChar = some c → c.elapsed + n < 55 ∨ c.heard = false) :
    advanceRx n s = { s with
      lineChar := (s.lineChar.map (fun c => { c with elapsed := c.elapsed + n })).filter
        (fun c => decide (c.elapsed < 55)) } := by
  unfold advanceRx
  split
  · next hc => cases s; cases hc; rfl
  · next c hc =>
    by_cases hlt : c.elapsed + n < 55
    · simp [hc, hlt, Option.filter]
    · simp [hc, hlt, Option.filter, (h c hc).resolve_left hlt]

/-- What an input leaves in reset. -/
theorem MachineInv.applyInputInReset {s : State} (h : MachineInv s) (hr : s.rstN = false) (i : Input) :
    MachineInv (applyInputInReset i s) := by
  cases i with
  | write | engine => exact h
  | read p =>
    have hp : s.prdata = 0 := by rw [h.inReset hr]; rfl
    have he : ({ s with prdata := 0 } : State) = s := by rw [← hp]
    exact he ▸ h
  | wait n =>
    have hcut : ∀ c, (cutReception s).lineChar = some c → c.heard = false := by
      intro c hc
      obtain ⟨l, -, rfl⟩ := Option.map_eq_some_iff.1 hc
      rfl
    have ht : Machine.applyInputInReset (.wait n) s = _ := advanceRx_of_no_reception fun c hc => .inr (hcut c hc)
    rw [ht]
    refine MachineInv.withLineChar h fun c hc => ?_
    obtain ⟨hc, hlt⟩ := Option.filter_eq_some_iff.1 hc
    obtain ⟨l, hl, rfl⟩ := Option.map_eq_some_iff.1 hc
    exact ⟨of_decide_eq_true hlt, fun hh => by simp [hcut l hl] at hh⟩
  | charStart d p q => exact MachineInv.startChar h d p q
  | rst level =>
    cases level with
    | true => exact MachineInv.resetBlock h true
    | false => exact h
  | phy level => exact { h with inReset := fun hr => by rw [h.inReset hr]; rfl }

/-- What an input leaves out of reset. -/
theorem MachineInv.applyInput {s t : State} {i : Input} (h : MachineInv s) (hr : s.rstN = true)
    (ht : applyInput i s = .next t) : MachineInv t := by
  cases i with
  | write p v => cases ht; exact MachineInv.hostWrite h hr p v
  | read p => cases ht; exact MachineInv.hostRead h hr p
  | engine => exact MachineInv.engineMove h hr ht
  | wait n => cases ht; exact MachineInv.passTime h hr n
  | charStart d p q => cases ht; exact MachineInv.startChar h d p q
  | rst level =>
    cases ht
    cases level with
    | true => exact h
    | false => exact MachineInv.resetBlock h false
  | phy level => cases ht; exact MachineInv.of_agree h hr rfl

end Sys2Proof.Machine

namespace Sys2Proof.Proofs

open Sys2Proof.Machine Sys2Proof.Safety

/-- Settles O59: each agent's move keeps the invariant. -/
theorem stepKeepsInvariant : Obligations.StepKeepsInvariant := by
  intro s t h hs
  rcases step_cases hs with ⟨hr, ht⟩ | ⟨hr, -, -, hrest⟩ | ⟨i, rest, hr, -, -, ht⟩ | ⟨-, -, rfl⟩ |
    ⟨i, rest, hr, -, rfl⟩
  · exact MachineInv.transitionNow h hr ht
  · rcases hrest with ⟨-, hm⟩ | ⟨-, -, rfl⟩ | ⟨-, -, rfl⟩
    · exact MachineInv.engineMove h hr hm
    · exact MachineInv.refill h
    · exact MachineInv.passTime h hr _
  · exact MachineInv.applyInput (MachineInv.inputs h rest) hr ht
  · exact MachineInv.refill h
  · exact MachineInv.applyInputInReset (MachineInv.inputs h rest) hr i

end Sys2Proof.Proofs
end
section
/-! SUPPORT. The host's accesses as steps: which register a word number selects, and what reading and writing it does. -/

namespace Sys2Proof.Machine

open Sys2Proof.Safety

/-- The word number of a register or buffer entry (R23). -/
def wordNumber : HostReg → Nat
  | .ctrl => 0
  | .status => 1
  | .cmd => 2
  | .arg => 3
  | .crc => 4
  | .timeout => 5
  | .silence => 6
  | .req => 7
  | .txlen => 8
  | .rxlen => 9
  | .result => 10
  | .rplen => 11
  | .wval i => 0x80 + i
  | .txbuf i => 0x100 + i
  | .rxbuf i => 0x200 + i
  | .reserved => 0x300

/-- A register that is not reserved is at its own word number only. -/
theorem wordNumber_hostRegOfWord {n : Nat} (h : hostRegOfWord n ≠ .reserved) : wordNumber (hostRegOfWord n) = n := by
  by_cases hlt : n < 12
  · interval_cases n <;> rfl
  · rw [hostRegOfWord_ge (by omega)] at h ⊢
    split_ifs at h ⊢
    all_goals first
      | exact absurd rfl h
      | (simp only [wordNumber]; omega)

/-- The registers and buffer entries a write to which needs BUSY = 0 (R45). -/
def isOperand : HostReg → Bool
  | .cmd | .arg | .crc | .timeout | .silence | .req | .txlen | .wval _ | .txbuf _ => true
  | .ctrl | .status | .rxlen | .result | .rplen | .rxbuf _ | .reserved => false

/-- The operands' word numbers. -/
theorem isOperand_hostRegOfWord (n : Nat) :
    isOperand (hostRegOfWord n) = true ↔
      (2 ≤ n ∧ n ≤ 8) ∨ (0x80 ≤ n ∧ n ≤ 0xFA) ∨ (0x100 ≤ n ∧ n ≤ 0x1FF) := by
  by_cases hlt : n < 12
  · interval_cases n <;> decide
  · rw [hostRegOfWord_ge (by omega)]
    split_ifs
    all_goals simp only [isOperand]; simp; omega

/-- A host write in its turn. -/
theorem step_hostWrite {s : State} {n : Nat} {v : Word} {rest : List Input} (h : HostWrites s n v rest) :
    ∃ p, hostRegAt p = hostRegOfWord n ∧ step s = .next (hostWrite p v { s with inputs := rest }) := by
  obtain ⟨p, rfl, hr, hn, hi⟩ := h
  exact ⟨p, rfl, step_input hr hn hi⟩

/-- A write's turn at a register that is not reserved is the host's write of that register. -/
theorem hostWrites_of_turn {s : State} {p : BitVec 12} {v : Word} {rest : List Input}
    (h : HasTurn s (.write p v) rest) {r : HostReg} (hp : hostRegAt p = r) (hr : r ≠ .reserved) :
    HostWrites s (wordNumber r) v rest :=
  ⟨p, by rw [← hp] at hr ⊢; exact (wordNumber_hostRegOfWord hr).symm, h⟩

/-- A write to an operand with BUSY = 1 sets WBUSY and does nothing else (R45). -/
theorem hostWrite_busy {s : State} {p : BitVec 12} (v : Word) (hb : s.busy = true)
    (ho : isOperand (hostRegAt p) = true) : hostWrite p v s = { s with wbusy := true } := by
  unfold hostWrite
  cases hp : hostRegAt p with
  | cmd | arg | crc | timeout | silence | req | txlen | wval | txbuf => exact if_pos hb
  | ctrl | status | rxlen | result | rplen | rxbuf | reserved => simp [hp, isOperand] at ho

/-- What a register reads as does not depend on the inputs to come. -/
theorem readReg_inputs (r : HostReg) (s : State) (l : List Input) : readReg r { s with inputs := l } = readReg r s := by
  cases r <;> rfl

/-- A read of a specified value (R46). -/
theorem step_hostRead_current {s : State} {n : Nat} {rest : List Input} (h : HostReads s n rest)
    (hs : s.busy = false ∨ unspecifiedWhileBusy (hostRegOfWord n) = false) :
    step s = .next { s with prdata := readReg (hostRegOfWord n) s, inputs := rest } := by
  obtain ⟨p, rfl, hr, hn, hi⟩ := h
  rw [step_input hr hn hi]
  have hc : ¬(s.busy && unspecifiedWhileBusy (hostRegAt p)) = true := by
    rcases hs with hs | hs <;> simp [hostRegAt, hs]
  simp only [applyInput, hostRead, if_neg hc, readReg_inputs]
  rfl

/-- A read of a value the engine may be changing (R46). -/
theorem step_hostRead_free {s : State} {n : Nat} {rest : List Input} (h : HostReads s n rest) (hb : s.busy = true)
    (hu : unspecifiedWhileBusy (hostRegOfWord n) = true) :
    step s = .next { s with prdata := Config.freeWord s.draws, draws := s.draws + 1, inputs := rest } := by
  obtain ⟨p, rfl, hr, hn, hi⟩ := h
  rw [step_input hr hn hi]
  have hc : (s.busy && unspecifiedWhileBusy (hostRegAt p)) = true := by simp [hostRegAt, hb, hu]
  simp only [applyInput, hostRead, if_pos hc]

/-- A bit field of a word put together from fields, where it lies in the lower part. -/
theorem extractLsb'_append_low {m n i k : Nat} (x : BitVec m) (y : BitVec n) (h : i + k ≤ n) :
    (x ++ y).extractLsb' i k = y.extractLsb' i k := by
  apply BitVec.eq_of_getLsbD_eq
  intro j hj
  simp [BitVec.getLsbD_append, hj, show i + j < n by omega]

/-- A bit field where it lies in the upper part. -/
theorem extractLsb'_append_high {m n i k : Nat} (x : BitVec m) (y : BitVec n) (h : n ≤ i) :
    (x ++ y).extractLsb' i k = x.extractLsb' (i - n) k := by
  apply BitVec.eq_of_getLsbD_eq
  intro j hj
  simp [BitVec.getLsbD_append, hj, show ¬i + j < n by omega, show i + j - n = i - n + j by omega]

/-- A bit of a word put together from fields, in its lower part. -/
theorem getLsbD_append_low {m n i : Nat} (x : BitVec m) (y : BitVec n) (h : i < n) :
    (x ++ y).getLsbD i = y.getLsbD i := by
  simp [BitVec.getLsbD_append, h]

/-- A bit in the upper part. -/
theorem getLsbD_append_high {m n i : Nat} (x : BitVec m) (y : BitVec n) (h : n ≤ i) :
    (x ++ y).getLsbD i = x.getLsbD (i - n) := by
  simp [BitVec.getLsbD_append, Nat.not_lt.2 h]

/-- RESULT with the widths of its fields kept apart (R42). -/
def resultFields (r : DecodedHeader) : BitVec (6 + 2 + 8 + 8 + 8) :=
  0#6 ++ kindBits r.kind ++ r.excode ++ r.func ++ r.addr

theorem resultWord_extractLsb' (r : DecodedHeader) (i k : Nat) :
    (resultWord r).extractLsb' i k = (resultFields r).extractLsb' i k := rfl

/-- STATUS with the widths of its fields kept apart (R25 to R33). -/
def statusFields (s : State) : BitVec (13 + 3 + 8 + 2 + 1 + 1 + 1 + 1 + 1 + 1) :=
  0#13 ++ phaseBits s.phase ++ codeByte s.code ++ 0#2 ++ BitVec.ofBool s.late ++ BitVec.ofBool s.rxerr ++
    BitVec.ofBool s.wbusy ++ BitVec.ofBool s.opened ++ BitVec.ofBool s.done ++ BitVec.ofBool s.busy

theorem statusWord_getLsbD (s : State) (i : Nat) : (statusWord s).getLsbD i = (statusFields s).getLsbD i := rfl

theorem statusWord_extractLsb' (s : State) (i k : Nat) :
    (statusWord s).extractLsb' i k = (statusFields s).extractLsb' i k := rfl

/-- Where the fields of RESULT lie. -/
theorem resultWord_fields (r : DecodedHeader) :
    (resultWord r).extractLsb' 0 8 = r.addr ∧ (resultWord r).extractLsb' 8 8 = r.func ∧
    (resultWord r).extractLsb' 16 8 = r.excode ∧ (resultWord r).extractLsb' 24 2 = kindBits r.kind ∧
    (resultWord r).extractLsb' 26 6 = 0 := by
  simp (disch := decide) only [resultWord_extractLsb', resultFields, extractLsb'_append_low, extractLsb'_append_high]
  simp

/-- Where the fields of STATUS lie. -/
theorem statusWord_fields (s : State) :
    (statusWord s).getLsbD 0 = s.busy ∧ (statusWord s).getLsbD 1 = s.done ∧ (statusWord s).getLsbD 2 = s.opened ∧
    (statusWord s).getLsbD 3 = s.wbusy ∧ (statusWord s).getLsbD 4 = s.rxerr ∧ (statusWord s).getLsbD 5 = s.late ∧
    (statusWord s).extractLsb' 6 2 = 0 ∧ (statusWord s).extractLsb' 8 8 = codeByte s.code ∧
    (statusWord s).extractLsb' 16 3 = phaseBits s.phase ∧ (statusWord s).extractLsb' 19 13 = 0 := by
  simp (disch := decide) only [statusWord_getLsbD, statusWord_extractLsb', statusFields, getLsbD_append_low,
    getLsbD_append_high, extractLsb'_append_low, extractLsb'_append_high]
  simp

end Sys2Proof.Machine

namespace Sys2Proof.Proofs

open Sys2Proof.Machine Sys2Proof.Safety

/-- Settles O41: a read gives the register's word, or a free value where BUSY = 1 leaves it unspecified. -/
theorem hostReadValues : Obligations.HostReadValues := by
  refine ⟨resultWord_fields, rfl, ?_⟩
  intro s n rest h gives givesIdle
  have current (r : HostReg) (hr : hostRegOfWord n = r) (hu : unspecifiedWhileBusy r = false) : gives (readReg r s) :=
    hr ▸ step_hostRead_current h (.inr (hr ▸ hu))
  have idle (r : HostReg) (hr : hostRegOfWord n = r) (hu : unspecifiedWhileBusy r = true) :
      givesIdle (readReg r s) :=
    ⟨fun hb => hr ▸ step_hostRead_current h (.inl hb), fun hb => step_hostRead_free h hb (hr ▸ hu)⟩
  have ctrl : readReg .ctrl s = if s.ie = true then 1 else 0 := by
    unfold readReg
    cases s.ie <;> rfl
  exact ⟨fun hn => ctrl ▸ current .ctrl (hn ▸ rfl) rfl, fun hn => current .status (hn ▸ rfl) rfl,
    fun hn => current .cmd (hn ▸ rfl) rfl, fun hn => current .arg (hn ▸ rfl) rfl,
    fun hn => current .timeout (hn ▸ rfl) rfl, fun hn => current .silence (hn ▸ rfl) rfl,
    fun hn => current .txlen (hn ▸ rfl) rfl,
    fun i hi hn => current (.wval i) (hn ▸ hostRegOfWord_wval i hi) rfl,
    fun i hi hn => current (.txbuf i) (hn ▸ hostRegOfWord_txbuf i hi) rfl,
    fun hn => idle .crc (hn ▸ rfl) rfl, fun hn => idle .req (hn ▸ rfl) rfl, fun hn => idle .rxlen (hn ▸ rfl) rfl,
    fun hn => idle .result (hn ▸ rfl) rfl, fun hn => idle .rplen (hn ▸ rfl) rfl,
    fun i hi hn => idle (.rxbuf i) (hn ▸ hostRegOfWord_rxbuf i hi) rfl⟩

/-- Settles O44: a write to an operand with BUSY = 1 only sets WBUSY. -/
theorem busyWritesAreIgnored : Obligations.BusyWritesAreIgnored := by
  intro s n v rest h hb
  obtain ⟨p, hp, hs⟩ := step_hostWrite h
  rw [hs]
  refine ⟨fun hn => ?_, ?_, ?_⟩
  · have ho : isOperand (hostRegAt p) = true := hp ▸ (isOperand_hostRegOfWord n).2 hn
    rw [hostWrite_busy (s := { s with inputs := rest }) v hb ho]
  · rintro rfl
    simp only [hostWrite, hp]
    rfl
  · rintro rfl
    simp only [hostWrite, hp]
    rfl

/-- Settles O45: the layout of STATUS, and the write-one-to-clear of its four flags. -/
theorem statusWordAndWrite : Obligations.StatusWordAndWrite := by
  refine ⟨statusWord_fields, by decide, by decide, fun s v rest h => ?_⟩
  obtain ⟨p, hp, hs⟩ := step_hostWrite h
  rw [hs]
  simp only [hostWrite, hp]
  rfl

/-- Settles O46: with BUSY = 0 a write stores the register's bits. -/
theorem operandWrites : Obligations.OperandWrites := by
  intro s n v rest h hb
  obtain ⟨p, hp, hs⟩ := step_hostWrite h
  rw [hs]
  refine ⟨?_, ?_, ?_, ?_, ?_, ?_, ?_⟩
  all_goals
    rintro rfl
    simp [hostWrite, hp, hostRegOfWord, unlessBusy, hb, legalSilence]

end Sys2Proof.Proofs
end
section
/-! SUPPORT. Who moves in a step, and what that agent can change. -/

namespace Sys2Proof.Machine

open Sys2Proof.Safety

/-- `t` is `s` but for the engine's phase and completion, the line, the pins `phy_ok` and `prdata`, and the model's own
fields. -/
abbrev KeepsRegisters (s t : State) : Prop :=
  t = { s with
    busy := t.busy, done := t.done, code := t.code, phase := t.phase, op := t.op, k := t.k, lineChar := t.lineChar,
    txShift := t.txShift, phyOk := t.phyOk, prdata := t.prdata, draws := t.draws, inputs := t.inputs,
    later := t.later }

/-- A step that begins and ends out of reset, by the agent that moves. -/
inductive Moved (s : State) : State → Prop where
  /-- The engine runs a command. -/
  | engine {t : State} (i : Instr) (l : List Input) (hp : s.phase = .exec) (hd : decode s.cmd = .ok i)
      (hr : Ran i { s with inputs := l } t) : Moved s t
  /-- The host writes. -/
  | write (p : BitVec 12) (v : Word) (rest : List Input) (ht : HasTurn s (.write p v) rest) :
      Moved s (hostWrite p v { s with inputs := rest })
  /-- Time passes. -/
  | time (n : Nat) (l : List Input) : Moved s (advance n { s with inputs := l })
  /-- Any other move. -/
  | other {t : State} (h : KeepsRegisters s t) : Moved s t

theorem engineMove_moved {s t : State} {l : List Input} (h : engineMove { s with inputs := l } = .next t) :
    Moved s t := by
  rcases engineMove_cases h with ⟨-, rfl⟩ | ⟨hp, i, hd, he⟩ | ⟨-, -, rfl⟩
  · exact .other rfl
  · exact .engine i l hp hd (exec_ran he)
  · exact .other rfl

theorem transitionNow_moved {s t : State} (h : transitionNow s = some t) : Moved s t := by
  rcases transitionNow_cases h with ⟨-, -, rfl⟩ | ⟨-, -, rfl⟩ | ⟨-, -, rfl⟩ <;> exact .other rfl

theorem startChar_moved (s : State) (l : List Input) (d : Byte) (p q : Bool) :
    Moved s (startChar d p q { s with inputs := l }) := by
  refine .other ?_
  unfold startChar
  split <;> rfl

theorem hostRead_moved (s : State) (l : List Input) (p : BitVec 12) : Moved s (hostRead p { s with inputs := l }) := by
  refine .other ?_
  unfold hostRead
  split <;> rfl

theorem refill_moved (s : State) : Moved s (refill s) :=
  .other (by rw [refill_eq])

theorem passTime_moved (s : State) (l : List Input) (n : Nat) : Moved s (passTime n { s with inputs := l }) :=
  .time _ _

/-- Every step that begins and ends out of reset is one of these moves. -/
theorem step_moved {s t : State} (h : step s = .next t) (hs : s.rstN = true) (ht : t.rstN = true) : Moved s t := by
  rcases step_cases h with ⟨-, hn⟩ | ⟨-, -, -, hrest⟩ | ⟨i, rest, -, hn, hi, ha⟩ | ⟨hr, -⟩ | ⟨_, _, hr, -⟩
  · exact transitionNow_moved hn
  · rcases hrest with ⟨-, hm⟩ | ⟨-, -, rfl⟩ | ⟨-, -, rfl⟩
    · exact engineMove_moved (l := s.inputs) hm
    · exact refill_moved s
    · exact passTime_moved s s.inputs _
  · cases i with
    | write p v => cases ha; exact .write p v rest ⟨hs, hn, hi⟩
    | read p => cases ha; exact hostRead_moved s rest p
    | engine => exact engineMove_moved ha
    | wait n => cases ha; exact passTime_moved s rest n
    | charStart d p q => cases ha; exact startChar_moved s rest d p q
    | rst level =>
      cases level with
      | true => cases ha; exact .other rfl
      | false => cases ha; cases ht
    | phy level => cases ha; exact .other rfl
  · simp [hs] at hr
  · simp [hs] at hr

/-- What ticks on `rxd` do. -/
inductive Received (s : State) : State → Prop where
  /-- No heard character ends. -/
  | nothing (lc : Option LineChar) : Received s { s with lineChar := lc }
  /-- A heard character ends in RX_WAIT or RX_ACTIVE. -/
  | stored (c : LineChar) (hc : s.lineChar = some c) (hh : c.heard = true) (hp : s.phase = .rxWait ∨ s.phase = .rxActive) :
      Received s (storeChar c.data (charOk c) { s with lineChar := none })
  /-- A heard character ends in another phase, the receiver being enabled. -/
  | discarded (c : LineChar) (hc : s.lineChar = some c) (hh : c.heard = true) (he : rxEnabled s = true)
      (hw : s.phase ≠ .rxWait) (ha : s.phase ≠ .rxActive) : Received s (discardChar { s with lineChar := none })

theorem advanceRx_received (n : Nat) (s : State) : Received s (advanceRx n s) := by
  unfold advanceRx
  split
  · exact .nothing s.lineChar
  · next c hc =>
    split
    · exact .nothing _
    · split
      · next hr =>
        obtain ⟨hh, he⟩ := Bool.and_eq_true_iff.1 hr
        unfold receiveChar
        split
        · next hp => exact .stored c hc hh (.inl hp)
        · next hp => exact .stored c hc hh (.inr hp)
        all_goals
          next hp =>
            have hp : s.phase = _ := hp
            exact .discarded c hc hh he (by simp [hp]) (by simp [hp])
      · exact .nothing _

/-- Time changes RXLEN, RXERR and LATE by reception only. -/
theorem advance_received (n : Nat) (s : State) :
    ∃ u, Received (advanceTimers n s) u ∧ (advance n s).rxlen = u.rxlen ∧ (advance n s).rxerr = u.rxerr ∧
      (advance n s).late = u.late :=
  ⟨_, advanceRx_received n _, by simp [advance], by simp [advance], by simp [advance]⟩

/-- Which register a host write that changes a field went to, and that BUSY was 0. -/
theorem hostWrite_owners (p : BitVec 12) (v : Word) (s : State) :
    ((hostWrite p v s).ie ≠ s.ie → hostRegAt p = .ctrl) ∧
    ((hostWrite p v s).cmd ≠ s.cmd → s.busy = false ∧ hostRegAt p = .cmd) ∧
    ((hostWrite p v s).arg ≠ s.arg → s.busy = false ∧ hostRegAt p = .arg) ∧
    ((hostWrite p v s).timeout ≠ s.timeout → s.busy = false ∧ hostRegAt p = .timeout) ∧
    ((hostWrite p v s).silence ≠ s.silence → s.busy = false ∧ hostRegAt p = .silence) ∧
    ((hostWrite p v s).crc ≠ s.crc → s.busy = false ∧ hostRegAt p = .crc) ∧
    ((hostWrite p v s).raddr ≠ s.raddr ∨ (hostWrite p v s).rfunc ≠ s.rfunc →
      s.busy = false ∧ hostRegAt p = .req) ∧
    ((hostWrite p v s).txlen ≠ s.txlen → s.busy = false ∧ hostRegAt p = .txlen) := by
  cases hb : s.busy <;> cases hp : hostRegAt p
  all_goals simp [hostWrite, hp, unlessBusy, hb]

/-- What no host write changes. -/
theorem hostWrite_frame (p : BitVec 12) (v : Word) (s : State) :
    (hostWrite p v s).opened = s.opened ∧ (hostWrite p v s).rxlen = s.rxlen ∧
      (hostWrite p v s).result = s.result ∧ (hostWrite p v s).rplen = s.rplen := by
  cases hb : s.busy <;> cases hp : hostRegAt p
  all_goals simp [hostWrite, hp, unlessBusy, hb]

/-- What a host write does to the sticky flags: STATUS clears them, and an operand with BUSY = 1 sets WBUSY. -/
theorem hostWrite_flags (p : BitVec 12) (v : Word) (s : State) :
    (hostRegAt p = .status ∧ hostWrite p v s = clearStatus v s) ∨
    (s.busy = true ∧ isOperand (hostRegAt p) = true ∧ hostWrite p v s = { s with wbusy := true }) ∨
    ((hostWrite p v s).wbusy = s.wbusy ∧ (hostWrite p v s).rxerr = s.rxerr ∧ (hostWrite p v s).late = s.late) := by
  cases hb : s.busy <;> cases hp : hostRegAt p
  all_goals simp [hostWrite, hp, unlessBusy, hb, isOperand]

/-- No command changes a register of the host's alone. -/
theorem Ran.keeps_hostRegisters {i : Instr} {s t : State} (h : Ran i s t) :
    t.ie = s.ie ∧ t.cmd = s.cmd ∧ t.arg = s.arg ∧ t.timeout = s.timeout ∧ t.silence = s.silence := by
  cases h <;> simp

/-- No command changes a sticky flag. -/
theorem Ran.keeps_flags {i : Instr} {s t : State} (h : Ran i s t) :
    t.wbusy = s.wbusy ∧ t.rxerr = s.rxerr ∧ t.late = s.late := by
  cases h <;> simp

/-- How WBUSY changes: the host writes STATUS, or an operand with BUSY = 1. -/
theorem Moved.wbusy {s t : State} (h : Moved s t) :
    t.wbusy = s.wbusy ∨
    (∃ v rest, HostWrites s 1 v rest ∧ t.wbusy = (s.wbusy && !v.getLsbD 3)) ∨
    (s.busy = true ∧ t.wbusy = true ∧ ∃ n v rest, HostWrites s n v rest ∧
      ((2 ≤ n ∧ n ≤ 8) ∨ (0x80 ≤ n ∧ n ≤ 0xFA) ∨ (0x100 ≤ n ∧ n ≤ 0x1FF))) := by
  cases h with
  | engine i l hp hd hr =>
    obtain ⟨hw, -, -⟩ := hr.keeps_flags
    exact .inl hw
  | write p v rest ht =>
    rcases hostWrite_flags p v { s with inputs := rest } with ⟨hp, hw⟩ | ⟨hb, ho, hw⟩ | ⟨hw, -, -⟩
    · exact .inr (.inl ⟨v, rest, hostWrites_of_turn ht hp (by decide), by rw [hw]; rfl⟩)
    · refine .inr (.inr ⟨hb, by rw [hw], p.toNat / 4, v, rest, ⟨p, rfl, ht⟩, ?_⟩)
      exact (isOperand_hostRegOfWord _).1 ho
    · exact .inl hw
  | time n l => exact .inl (advance_wbusy n _)
  | other hk => exact .inl (by rw [hk])

/-- How RXERR changes: the host writes STATUS, or a heard character ends in RX_WAIT or RX_ACTIVE. -/
theorem Moved.rxerr {s t : State} (h : Moved s t) :
    t.rxerr = s.rxerr ∨
    (∃ v rest, HostWrites s 1 v rest ∧ t.rxerr = (s.rxerr && !v.getLsbD 4)) ∨
    ((s.phase = .rxWait ∨ s.phase = .rxActive) ∧
      ∃ c, s.lineChar = some c ∧ c.heard = true ∧ t.rxerr = (s.rxerr || !charOk c)) := by
  cases h with
  | engine i l hp hd hr =>
    obtain ⟨-, he, -⟩ := hr.keeps_flags
    exact .inl he
  | write p v rest ht =>
    rcases hostWrite_flags p v { s with inputs := rest } with ⟨hp, hw⟩ | ⟨-, -, hw⟩ | ⟨-, he, -⟩
    · exact .inr (.inl ⟨v, rest, hostWrites_of_turn ht hp (by decide), by rw [hw]; rfl⟩)
    · exact .inl (by rw [hw])
    · exact .inl he
  | time n l =>
    obtain ⟨u, hu, -, he, -⟩ := advance_received n { s with inputs := l }
    rw [he]
    cases hu with
    | nothing lc => exact .inl rfl
    | stored c hc hh hp => exact .inr (.inr ⟨hp, c, hc, hh, rfl⟩)
    | discarded => exact .inl rfl
  | other hk => exact .inl (by rw [hk])

/-- How LATE changes: the host writes STATUS, or a heard character ends in a phase that receives none. -/
theorem Moved.late {s t : State} (h : Moved s t) :
    t.late = s.late ∨
    (∃ v rest, HostWrites s 1 v rest ∧ t.late = (s.late && !v.getLsbD 5)) ∨
    (t.late = true ∧ s.opened = true ∧ s.phase ≠ .tx ∧ s.phase ≠ .rxWait ∧ s.phase ≠ .rxActive ∧
      ∃ c, s.lineChar = some c ∧ c.heard = true) := by
  cases h with
  | engine i l hp hd hr =>
    obtain ⟨-, -, hl⟩ := hr.keeps_flags
    exact .inl hl
  | write p v rest ht =>
    rcases hostWrite_flags p v { s with inputs := rest } with ⟨hp, hw⟩ | ⟨-, -, hw⟩ | ⟨-, -, hl⟩
    · exact .inr (.inl ⟨v, rest, hostWrites_of_turn ht hp (by decide), by rw [hw]; rfl⟩)
    · exact .inl (by rw [hw])
    · exact .inl hl
  | time n l =>
    obtain ⟨u, hu, -, -, hl⟩ := advance_received n { s with inputs := l }
    rw [hl]
    cases hu with
    | nothing lc => exact .inl rfl
    | stored => exact .inl rfl
    | discarded c hc hh he hw ha =>
      have ⟨ho, hp⟩ : s.opened = true ∧ s.phase ≠ .tx := by simpa [rxEnabled, reN] using he
      exact .inr (.inr ⟨rfl, ho, hp, hw, ha, c, hc, hh⟩)
  | other hk => exact .inl (by rw [hk])

end Sys2Proof.Machine

namespace Sys2Proof.Proofs

open Sys2Proof.Machine Sys2Proof.Safety

/-- Settles O52: of all moves only the commands OPEN and CLOSE write STATUS.OPEN. -/
theorem openFlagOwners : Obligations.OpenFlagOwners := by
  intro s t h hs ht hne
  cases step_moved h hs ht with
  | engine i l hp hd hr =>
    refine ⟨hp, ?_⟩
    cases hr with
    | opens a b hi => exact .inl ⟨rfl, a, b, hi ▸ hd⟩
    | closes a b hi => exact .inr ⟨rfl, a, b, hi ▸ hd⟩
    | _ => exact absurd rfl hne
  | write p v rest => exact absurd (hostWrite_frame p v _).1 hne
  | time n l => exact absurd (advance_opened n _) hne
  | other hk => exact absurd (congrArg State.opened hk) hne

/-- A flag that a written bit cleared was written with a 1. -/
theorem written_one {f b : Bool} (h : f = true) (hc : (f && !b) = false) : b = true := by
  simpa [h] using hc

/-- Settles O53: the moves that write a sticky flag are the host's writes and the receiver's. -/
theorem stickyFlags : Obligations.StickyFlags := by
  intro s t h hs ht
  have hm := step_moved h hs ht
  refine ⟨fun h1 h0 => ?_, fun h1 h0 => ?_, fun h1 h0 => ?_, fun h0 h1 => ?_, fun h0 h1 => ?_, fun h0 h1 => ?_⟩
  · rcases hm.wbusy with hw | ⟨v, rest, hw, hv⟩ | ⟨-, hw, -⟩
    · simp [hw, h1] at h0
    · exact ⟨v, rest, hw, written_one h1 (hv ▸ h0)⟩
    · simp [hw] at h0
  · rcases hm.rxerr with he | ⟨v, rest, hw, hv⟩ | ⟨-, c, -, -, he⟩
    · simp [he, h1] at h0
    · exact ⟨v, rest, hw, written_one h1 (hv ▸ h0)⟩
    · simp [he, h1] at h0
  · rcases hm.late with hl | ⟨v, rest, hw, hv⟩ | ⟨hl, -⟩
    · simp [hl, h1] at h0
    · exact ⟨v, rest, hw, written_one h1 (hv ▸ h0)⟩
    · simp [hl] at h0
  · rcases hm.wbusy with hw | ⟨v, rest, -, hv⟩ | ⟨hb, -, hw⟩
    · simp [hw, h0] at h1
    · simp [hv, h0] at h1
    · exact ⟨hb, hw⟩
  · rcases hm.rxerr with he | ⟨v, rest, -, hv⟩ | ⟨hp, c, hc, hh, he⟩
    · simp [he, h0] at h1
    · simp [hv, h0] at h1
    · refine ⟨hp, c, hc, hh, ?_⟩
      have hbad : charOk c = false := by simpa [he, h0] using h1
      simpa [charOk, imp_iff_not_or] using hbad
  · rcases hm.late with hl | ⟨v, rest, -, hv⟩ | ⟨-, hcause⟩
    · simp [hl, h0] at h1
    · simp [hv, h0] at h1
    · exact hcause

/-- Settles O54: what each of the engine, the host and the receiver writes. -/
theorem registerOwners : Obligations.RegisterOwners := by
  intro s t h hs ht hostWrote ran
  cases step_moved h hs ht with
  | engine i l hp hd hr =>
    obtain ⟨hie, hcmd, harg, hto, hsi⟩ := hr.keeps_hostRegisters
    refine ⟨absurd hie, absurd hcmd, absurd harg, absurd hto, absurd hsi, ?_⟩
    cases hr with
    | nothing | opens | closes => simp
    | crc c v hi => exact ⟨fun _ => .inr ⟨hp, i, hd, hi⟩, by simp, by simp, by simp, by simp⟩
    | encoder m n a f hi =>
      exact ⟨by simp, fun _ => .inr ⟨hp, i, hd, hi⟩, fun _ => .inr ⟨hp, i, hd, hi⟩, by simp, by simp⟩
    | decoder c r len hi => exact ⟨by simp, by simp, by simp, by simp, fun _ => .inl ⟨hp, i, hd, hi⟩⟩
    | starts o hi =>
      exact ⟨by simp, by simp, by simp, fun _ => .inl ⟨rfl, hp, i, hd, hi⟩,
        fun _ => .inr ⟨rfl, rfl, hp, i, hd, hi⟩⟩
  | write p v rest hturn =>
    obtain ⟨hie, hcmd, harg, hto, hsi, hcrc, hreq, htx⟩ := hostWrite_owners p v { s with inputs := rest }
    obtain ⟨-, hrx, hres, hrp⟩ := hostWrite_frame p v { s with inputs := rest }
    have wrote {r : HostReg} (hr : r ≠ .reserved) (h : s.busy = false ∧ hostRegAt p = r) :
        hostWrote (wordNumber r) := ⟨h.1, v, rest, hostWrites_of_turn hturn h.2 hr⟩
    exact ⟨fun hne => ⟨v, rest, hostWrites_of_turn hturn (hie hne) (by decide)⟩,
      fun hne => wrote (by decide) (hcmd hne), fun hne => wrote (by decide) (harg hne),
      fun hne => wrote (by decide) (hto hne), fun hne => wrote (by decide) (hsi hne),
      fun hne => .inl (wrote (by decide) (hcrc hne)), fun hne => .inl (wrote (by decide) (hreq hne)),
      fun hne => .inl (wrote (by decide) (htx hne)), absurd hrx, fun hne => absurd hne (by simp [hres, hrp])⟩
  | time n l =>
    refine ⟨by simp, by simp, by simp, by simp, by simp, by simp, by simp, by simp, fun hne => .inr ?_, by simp⟩
    obtain ⟨u, hu, hrx, -, -⟩ := advance_received n { s with inputs := l }
    rw [hrx] at hne ⊢
    cases hu with
    | nothing lc => exact absurd rfl hne
    | stored c hc hh hp =>
      refine ⟨hp, ?_, c, hc, hh⟩
      rw [storeChar_rxlen_toNat]
      exact if_pos (not_not.1 fun hfull => hne (storeChar_rxlen_full _ _ hfull))
    | discarded => exact absurd rfl hne
  | other hk =>
    rw [hk]
    simp

end Sys2Proof.Proofs
end
section
/-! SUPPORT. The pin `phy_ok` goes through every operation unread, but for OPEN on a closed port (R48). -/

namespace Sys2Proof.Machine

open Sys2Proof.Safety

/-- The pin `phy_ok` at another level. -/
def withPhyOk (b : Bool) (s : State) : State := { s with phyOk := b }

/-- A function on the next state, if there is one. -/
def onNext (f : State → State) : Host.Outcome State Fault Refusal → Host.Outcome State Fault Refusal
  | .next s => .next (f s)
  | .fault r => .fault r
  | .refused r => .refused r

variable (b : Bool) (s : State)

@[simp] theorem withPhyOk_phase : (withPhyOk b s).phase = s.phase := rfl
@[simp] theorem withPhyOk_opened : (withPhyOk b s).opened = s.opened := rfl
@[simp] theorem withPhyOk_cmd : (withPhyOk b s).cmd = s.cmd := rfl
@[simp] theorem withPhyOk_lineChar : (withPhyOk b s).lineChar = s.lineChar := rfl
@[simp] theorem withPhyOk_txShift : (withPhyOk b s).txShift = s.txShift := rfl
@[simp] theorem withPhyOk_rstN : (withPhyOk b s).rstN = s.rstN := rfl
@[simp] theorem withPhyOk_inputs : (withPhyOk b s).inputs = s.inputs := rfl
@[simp] theorem withPhyOk_later : (withPhyOk b s).later = s.later := rfl

/-! ### The commands -/

theorem decodeReceived_withPhyOk :
    decodeReceived (withPhyOk b s) = (withPhyOk b (decodeReceived s).1, (decodeReceived s).2) := by
  have hbytes : rxBytes (withPhyOk b s) 0 (withPhyOk b s).rxlen.toNat = rxBytes s 0 s.rxlen.toNat := rfl
  simp only [decodeReceived, hbytes]
  split <;> rfl

theorem execChk_withPhyOk : execChk (withPhyOk b s) = onNext (withPhyOk b) (execChk s) := by
  simp only [execChk, decodeReceived_withPhyOk]
  obtain ⟨t, c⟩ := decodeReceived s
  cases c <;> rfl

theorem execOpenPort_withPhyOk (ho : s.opened = true) :
    execOpenPort (withPhyOk b s) = onNext (withPhyOk b) (execOpenPort s) := by
  simp only [execOpenPort, withPhyOk_opened, ho, if_true]
  rfl

/-- A command gives the same state but for the pin, unless it is OPEN on a closed port. -/
theorem exec_withPhyOk (i : Instr) (h : s.opened = true ∨ ∀ x y, i ≠ .openPort x y) :
    exec i (withPhyOk b s) = onNext (withPhyOk b) (exec i s) := by
  cases i with
  | crcInit | crcByte | closePort => rfl
  | crcTx | crcRx => simp only [exec, execCrcTx, execCrcRx, apply_ite (onNext (withPhyOk b))]; rfl
  | encRaw | encRhr | encWmr | encUnl =>
    simp only [exec, execEncRaw, execEncRhr, execEncWmr, execEncUnl, apply_ite (onNext (withPhyOk b))]; rfl
  | dec => simp only [exec, execDec, decodeReceived_withPhyOk]; rfl
  | chk => exact execChk_withPhyOk b s
  | openPort x y => exact execOpenPort_withPhyOk b s (h.resolve_right fun hi => hi x y rfl)
  | xchg | send => simp only [exec, execXchg, execSend, apply_ite (onNext (withPhyOk b))]; rfl

/-- The engine's move. -/
theorem engineMove_withPhyOk (h : s.phase = .exec → s.opened = true ∨ ∀ x y, decode s.cmd ≠ .ok (.openPort x y)) :
    engineMove (withPhyOk b s) = onNext (withPhyOk b) (engineMove s) := by
  cases hp : s.phase with
  | exec =>
    simp only [engineMove, withPhyOk_phase, withPhyOk_cmd, hp]
    cases hd : decode s.cmd with
    | ok i => exact exec_withPhyOk b s i ((h hp).imp_right fun hi x y hxy => hi x y (hxy ▸ hd))
    | error e => rfl
  | _ => simp only [engineMove, withPhyOk_phase, hp]; rfl

/-! ### Time -/

theorem receiveChar_withPhyOk (d : Byte) (ok : Bool) :
    receiveChar d ok (withPhyOk b s) = withPhyOk b (receiveChar d ok s) := by
  simp only [receiveChar, withPhyOk_phase]
  split <;> rfl

theorem advanceRx_withPhyOk (n : Nat) : advanceRx n (withPhyOk b s) = withPhyOk b (advanceRx n s) := by
  simp only [advanceRx, withPhyOk_lineChar]
  split
  · rfl
  · next c hc =>
    have hrec := receiveChar_withPhyOk b { s with lineChar := none } c.data (charOk c)
    simp only [apply_ite (withPhyOk b), ← hrec]
    rfl

theorem advanceTx_withPhyOk (n : Nat) : advanceTx n (withPhyOk b s) = withPhyOk b (advanceTx n s) := by
  simp only [advanceTx, withPhyOk_txShift]
  split
  · rfl
  · simp only [endChar, endTx, apply_ite (withPhyOk b)]
    rfl

theorem advance_withPhyOk (n : Nat) : advance n (withPhyOk b s) = withPhyOk b (advance n s) := by
  have ht : advanceTimers n (withPhyOk b s) = withPhyOk b (advanceTimers n s) := rfl
  simp only [advance, ht, advanceRx_withPhyOk, advanceTx_withPhyOk]

theorem nextEvent_withPhyOk : nextEvent (withPhyOk b s) = nextEvent s := by
  unfold nextEvent silenceDue timeoutDue
  rfl

theorem passTime_withPhyOk (n : Nat) : passTime n (withPhyOk b s) = withPhyOk b (passTime n s) := by
  simp only [passTime, nextEvent_withPhyOk, ← advance_withPhyOk]
  rfl

theorem transitionNow_withPhyOk : transitionNow (withPhyOk b s) = (transitionNow s).map (withPhyOk b) := by
  simp only [transitionNow, withPhyOk_phase]
  split
  · simp only [apply_ite (Option.map (withPhyOk b))]
    rfl
  · simp only [apply_ite (Option.map (withPhyOk b))]
    rfl
  · simp only [apply_ite (Option.map (withPhyOk b))]
    rfl
  all_goals rfl

theorem startChar_withPhyOk (d : Byte) (p q : Bool) :
    startChar d p q (withPhyOk b s) = withPhyOk b (startChar d p q s) := by
  simp only [startChar, withPhyOk_lineChar]
  split <;> rfl

/-! ### The host -/

theorem readReg_withPhyOk (r : HostReg) : readReg r (withPhyOk b s) = readReg r s := by
  cases r <;> rfl

theorem hostRead_withPhyOk (p : BitVec 12) : hostRead p (withPhyOk b s) = withPhyOk b (hostRead p s) := by
  simp only [hostRead, readReg_withPhyOk, apply_ite (withPhyOk b)]
  rfl

theorem unlessBusy_withPhyOk {t u : State} (hu : u = withPhyOk b t) :
    unlessBusy (withPhyOk b s) u = withPhyOk b (unlessBusy s t) := by
  simp only [hu, unlessBusy, apply_ite (withPhyOk b)]
  rfl

theorem hostWrite_withPhyOk (p : BitVec 12) (v : Word) :
    hostWrite p v (withPhyOk b s) = withPhyOk b (hostWrite p v s) := by
  unfold hostWrite
  cases hostRegAt p with
  | cmd | arg | crc | timeout | silence | req | txlen | wval | txbuf => exact unlessBusy_withPhyOk b s rfl
  | ctrl | status | rxlen | result | rplen | rxbuf | reserved => rfl

/-! ### The step -/

theorem refill_withPhyOk : refill (withPhyOk b s) = withPhyOk b (refill s) := by
  simp only [refill, withPhyOk_later]
  split <;> rfl

theorem idleMove_withPhyOk : idleMove (withPhyOk b s) = withPhyOk b (idleMove s) := by
  simp only [idleMove, withPhyOk_later, nextEvent_withPhyOk, passTime_withPhyOk, refill_withPhyOk]
  split <;> rfl

/-- The engine's own move now would execute OPEN on a closed port. -/
def OpensNow (s : State) : Prop :=
  s.phase = .exec ∧ s.opened = false ∧ ∃ x y, decode s.cmd = .ok (.openPort x y)

theorem engineMove_withPhyOk_of_not_opensNow (h : ¬OpensNow s) :
    engineMove (withPhyOk b s) = onNext (withPhyOk b) (engineMove s) := by
  refine engineMove_withPhyOk b s fun hp => ?_
  cases ho : s.opened with
  | true => exact .inl rfl
  | false => exact .inr fun x y hd => h ⟨hp, ho, x, y, hd⟩

theorem restMove_withPhyOk (h : ¬OpensNow s) : restMove (withPhyOk b s) = onNext (withPhyOk b) (restMove s) := by
  simp only [restMove, withPhyOk_phase, engineMove_withPhyOk_of_not_opensNow b s h, idleMove_withPhyOk]
  split <;> rfl

theorem applyInput_withPhyOk (i : Input) (h : i = .engine → ¬OpensNow s) (hphy : ∀ l, i ≠ .phy l) :
    applyInput i (withPhyOk b s) = onNext (withPhyOk b) (applyInput i s) := by
  cases i with
  | write p v => exact congrArg Host.Outcome.next (hostWrite_withPhyOk b s p v)
  | read p => exact congrArg Host.Outcome.next (hostRead_withPhyOk b s p)
  | engine => exact engineMove_withPhyOk_of_not_opensNow b s (h rfl)
  | wait n => exact congrArg Host.Outcome.next (passTime_withPhyOk b s n)
  | charStart d p q => exact congrArg Host.Outcome.next (startChar_withPhyOk b s d p q)
  | rst level => cases level <;> rfl
  | phy level => exact absurd rfl (hphy level)

theorem applyInputInReset_withPhyOk (i : Input) (hphy : ∀ l, i ≠ .phy l) :
    applyInputInReset i (withPhyOk b s) = withPhyOk b (applyInputInReset i s) := by
  cases i with
  | write | read | engine => rfl
  | wait n => exact advanceRx_withPhyOk b (cutReception s) n
  | charStart d p q => exact startChar_withPhyOk b s d p q
  | rst level => cases level <;> rfl
  | phy level => exact absurd rfl (hphy level)

/-- The step with no input left. -/
theorem step_rest {s : State} (hr : s.rstN = true) (hn : transitionNow s = none) (hi : s.inputs = []) :
    step s = restMove s := by
  simp [step, move, hr, hn, hi]

/-- The step in reset with no input left. -/
theorem step_rest_inReset {s : State} (hr : s.rstN = false) (hi : s.inputs = []) : step s = .next (refill s) := by
  simp [step, move, hr, hi]

/-- An input's turn in reset. -/
theorem step_input_inReset {s : State} {i : Input} {rest : List Input} (hr : s.rstN = false)
    (hi : s.inputs = i :: rest) : step s = .next (applyInputInReset i { s with inputs := rest }) := by
  simp [step, move, hr, hi]

/-- Every step but OPEN on a closed port and a change of the pin gives the same state but for the pin. -/
theorem step_withPhyOk (h : s.rstN = true → (s.inputs = [] ∨ ∃ rest, s.inputs = .engine :: rest) → ¬OpensNow s)
    (hphy : ∀ l rest, s.inputs ≠ .phy l :: rest) : step (withPhyOk b s) = onNext (withPhyOk b) (step s) := by
  cases hr : s.rstN with
  | true =>
    have htr := transitionNow_withPhyOk b s
    cases hn : transitionNow s with
    | some t =>
      rw [hn] at htr
      rw [step_transition hr hn, step_transition (s := withPhyOk b s) hr htr]
      rfl
    | none =>
      rw [hn] at htr
      cases hi : s.inputs with
      | nil =>
        rw [step_rest hr hn hi, step_rest (s := withPhyOk b s) hr htr hi]
        exact restMove_withPhyOk b s (h hr (.inl hi))
      | cons i rest =>
        rw [step_input hr hn hi, step_input (s := withPhyOk b s) hr htr hi]
        exact applyInput_withPhyOk b { s with inputs := rest } i
          (fun he => h hr (.inr ⟨rest, he ▸ hi⟩)) (fun l he => hphy l rest (he ▸ hi))
  | false =>
    cases hi : s.inputs with
    | nil =>
      rw [step_rest_inReset hr hi, step_rest_inReset (s := withPhyOk b s) hr hi, refill_withPhyOk]
      rfl
    | cons i rest =>
      rw [step_input_inReset hr hi, step_input_inReset (s := withPhyOk b s) hr hi]
      exact congrArg Host.Outcome.next
        (applyInputInReset_withPhyOk b { s with inputs := rest } i fun l he => hphy l rest (he ▸ hi))

end Sys2Proof.Machine

namespace Sys2Proof.Proofs

open Sys2Proof.Machine Sys2Proof.Safety

/-- Settles O56: the pin goes through the step unread. -/
theorem phyOkMattersOnlyToOpen : Obligations.PhyOkMattersOnlyToOpen := by
  refine ⟨fun s t b hs hopen hphy => ?_, fun s l rest ⟨hr, hn, hi⟩ => step_input hr hn hi⟩
  have hnot : s.rstN = true → (s.inputs = [] ∨ ∃ rest, s.inputs = .engine :: rest) → ¬OpensNow s :=
    fun hr hi ⟨hp, ho, hd⟩ => hopen ⟨hr, hp, hi, ho, hd⟩
  calc step { s with phyOk := b }
    _ = onNext (withPhyOk b) (step s) := step_withPhyOk b s hnot hphy
    _ = .next { t with phyOk := b } := by rw [hs]; rfl

end Sys2Proof.Proofs
end
section
/-! SUPPORT. How long a wait goes on, and what passes where no character ends that is sent or heard. -/

namespace Sys2Proof.Machine

open Sys2Proof.Safety

/-- When the silence condition is due (R111, R118). -/
theorem silenceDue_eq_some {s : State} {x : Nat} : silenceDue s = some x ↔
    (s.phase = .waitIdle ∨ s.phase = .rxActive) ∧ s.lineChar = none ∧ s.txShift = none ∧
      s.silence.toNat * 5 - s.idle = x := by
  unfold silenceDue
  split <;> simp [*, lineQuiet, and_assoc]

/-- When the response timeout is due (R117, R118). -/
theorem timeoutDue_eq_some {s : State} {x : Nat} : timeoutDue s = some x ↔
    (s.phase = .rxWait ∨ s.phase = .rxActive) ∧ s.timeout.toNat * 48 - s.resp = x := by
  unfold timeoutDue
  split <;> simp [*]

/-- `d` comes no later than `e`, if `e` comes at all. -/
def NoLater (d : Nat) (e : Option Nat) : Prop := ∀ x, e = some x → d ≤ x

theorem noLater_earlier {d : Nat} {e f : Option Nat} (he : NoLater d e) (hf : NoLater d f) :
    NoLater d (earlier e f) := by
  cases e <;> cases f <;> simp_all [NoLater, earlier]

/-- The earlier of two times that are no sooner than `d` is `d` where one of them is. -/
theorem earlier_eq_some {d : Nat} {e f : Option Nat} (he : NoLater d e) (hf : NoLater d f)
    (h : e = some d ∨ f = some d) : earlier e f = some d := by
  cases e <;> cases f <;> simp_all [NoLater, earlier]
  omega

/-- No event comes sooner than `d`. -/
theorem noLater_nextEvent {s : State} {d : Nat} (hrx : NoLater d (rxDue s)) (htx : NoLater d (txDue s))
    (hsi : NoLater d (silenceDue s)) (hto : NoLater d (timeoutDue s)) : NoLater d (nextEvent s) :=
  noLater_earlier hrx (noLater_earlier htx (noLater_earlier hsi hto))

/-- The next event comes after `d`, where one of the three does and none sooner. -/
theorem nextEvent_eq_some {s : State} {d : Nat} (hrx : NoLater d (rxDue s)) (htx : NoLater d (txDue s))
    (hsi : NoLater d (silenceDue s)) (hto : NoLater d (timeoutDue s))
    (h : rxDue s = some d ∨ silenceDue s = some d ∨ timeoutDue s = some d) : nextEvent s = some d := by
  have hst := noLater_earlier hsi hto
  refine earlier_eq_some hrx (noLater_earlier htx hst) (h.imp_right fun h => ?_)
  exact earlier_eq_some htx hst (.inr (earlier_eq_some hsi hto h))

/-- How much of a wait of `n` ticks passes at once. -/
theorem min_nextEvent {n d : Nat} {e : Option Nat} (hd : d ≤ n) (hno : NoLater d e) (h : d = n ∨ e = some d) :
    min n (e.getD n) = d := by
  cases e with
  | none => simpa [eq_comm] using h
  | some x =>
    have := hno x rfl
    rcases h with rfl | h
    · simpa using this
    · cases h
      simpa using hd

theorem passTime_eq {s : State} {n d : Nat} (h : min n ((nextEvent s).getD n) = d) :
    passTime n s = advance d { s with inputs := remainingWait (n - d) s.inputs } := by
  simp only [passTime, h]

/-- What is left of a wait of `n` ticks after `d`. -/
theorem remainingWait_sub {n d : Nat} (hd : d ≤ n) (rest : List Input) :
    remainingWait (n - d) rest = if d = n then rest else .wait (n - d) :: rest := by
  unfold remainingWait
  exact if_congr (by omega) rfl rfl

/-- Ticks in which no character is sent to its end and no heard one ends. -/
theorem advance_of_no_end {s : State} {d : Nat}
    (hrx : ∀ c, s.lineChar = some c → c.elapsed + d < 55 ∨ c.heard = false)
    (htx : ∀ x, s.txShift = some x → x.elapsed + d < 55) :
    advance d s = { s with
      resp := s.resp + d, idle := if s.opened = true then s.idle + d else s.idle,
      lineChar := (s.lineChar.map (fun c => { c with elapsed := c.elapsed + d })).filter
        (fun c => decide (c.elapsed < 55)),
      txShift := s.txShift.map (fun x => { x with elapsed := x.elapsed + d }) } := by
  unfold advance
  rw [advanceRx_of_no_reception (s := advanceTimers d s) hrx]
  unfold advanceTx
  split
  · next hx =>
    have hx : s.txShift = none := hx
    simp [hx, advanceTimers]
  · next x hx =>
    have hx : s.txShift = some x := hx
    simp [hx, advanceTimers, htx x hx]

end Sys2Proof.Machine

namespace Sys2Proof.Proofs

open Sys2Proof.Machine Sys2Proof.Safety

/-- Settles O57: each pin is read off the phase and STATUS.OPEN, and the invariant ties the shift states to them. -/
theorem halfDuplexPins : Obligations.HalfDuplexPins := by
  intro s h
  have hre : reN s = false ↔ s.opened = true ∧ s.phase ≠ .tx := by simp [reN]
  have hde : de s = true ↔ s.phase = .tx := by simp [de]
  refine ⟨fun hp => ⟨?_, by simp [de, hp]⟩, hre, hde, fun ⟨h1, h2⟩ => (hre.1 h2).2 (hde.1 h1), fun hn c hc => ?_⟩
  · simp [txd, (MachineInv.line_of_not_tx h hp).1]
  · simpa [rxEnabled, hn] using (h.onRxd c hc).2

/-- Settles O60: the wait stops after `d` ticks because no event comes sooner and one comes then, or it is over. -/
theorem timersCount : Obligations.TimersCount := by
  intro s n d rest ⟨hr, hn, hi⟩ hd hrx htx hsil hto hstop
  have drx : NoLater d (rxDue s) := fun x hx => by
    obtain ⟨c, hc, rfl⟩ := Option.map_eq_some_iff.1 hx
    rcases hrx c hc with h | ⟨-, h⟩ <;> simp <;> omega
  have dtx : NoLater d (txDue s) := fun x hx => by
    obtain ⟨y, hy, rfl⟩ := Option.map_eq_some_iff.1 hx
    have := htx y hy
    simp
    omega
  have dsil : NoLater d (silenceDue s) := fun x hx => by
    obtain ⟨hp, hl, hxs, rfl⟩ := silenceDue_eq_some.1 hx
    have := hsil hp hl hxs
    omega
  have dto : NoLater d (timeoutDue s) := fun x hx => by
    obtain ⟨hp, rfl⟩ := timeoutDue_eq_some.1 hx
    have := hto hp
    omega
  have hevent : d = n ∨ nextEvent s = some d := by
    refine hstop.imp_right fun h => nextEvent_eq_some drx dtx dsil dto ?_
    rcases h with ⟨c, hc, he⟩ | ⟨hp, hl, hx, he⟩ | ⟨hp, he⟩
    · exact .inl (Option.map_eq_some_iff.2 ⟨c, hc, by simp; omega⟩)
    · exact .inr (.inl (silenceDue_eq_some.2 ⟨hp, hl, hx, by omega⟩))
    · exact .inr (.inr (timeoutDue_eq_some.2 ⟨hp, by omega⟩))
  have hmin := min_nextEvent hd (noLater_nextEvent drx dtx dsil dto) hevent
  rw [step_input hr hn hi]
  show Host.Outcome.next (passTime n { s with inputs := rest }) = _
  rw [passTime_eq (s := { s with inputs := rest }) hmin, remainingWait_sub hd]
  exact congrArg Host.Outcome.next
    (advance_of_no_end (s := { s with inputs := _ }) (fun c hc => (hrx c hc).imp_right And.left) htx)

end Sys2Proof.Proofs
end
section
/-! SUPPORT. Host accesses at any address (R54), writes that are ignored (R55), and what a write to a buffer entry
stores (R58). -/

namespace Sys2Proof.Machine

open Sys2Proof.Safety

/-- A write does not look at the low two address bits (R54). -/
theorem hostWrite_aligned (p : BitVec 12) (v : Word) : hostWrite (p &&& 0xFFC) v = hostWrite p v := by
  funext s
  unfold hostWrite
  rw [hostRegAt_aligned]

/-- A read does not look at the low two address bits (R54). -/
theorem hostRead_aligned (p : BitVec 12) : hostRead (p &&& 0xFFC) = hostRead p := by
  funext s
  unfold hostRead
  rw [hostRegAt_aligned]

/-- The step of an input that always answers a next state, in its turn, in reset or out of it. -/
theorem step_total_input {s : State} {i : Input} {rest : List Input} {f : State → State}
    (hf : ∀ u, applyInput i u = .next (f u)) (h : s.rstN = false ∨ transitionNow s = none)
    (hi : s.inputs = i :: rest) :
    step s = .next ((if s.rstN then f else applyInputInReset i) { s with inputs := rest }) := by
  by_cases hr : s.rstN = true
  · rw [step_input hr (h.resolve_left (by simp [hr])) hi, if_pos hr, hf]
  · rw [step_input_inReset (by simpa using hr) hi, if_neg hr]

/-- The registers and offsets where a write is ignored, busy or not (R55). -/
def ignoresWrites : HostReg → Bool
  | .rxlen | .result | .rplen | .rxbuf _ | .reserved => true
  | .ctrl | .status | .cmd | .arg | .crc | .timeout | .silence | .req | .txlen | .wval _ | .txbuf _ => false

theorem hostWrite_ignored {p : BitVec 12} (v : Word) (s : State) (h : ignoresWrites (hostRegAt p) = true) :
    hostWrite p v s = s := by
  unfold hostWrite
  cases hp : hostRegAt p with
  | rxlen | result | rplen | rxbuf | reserved => rfl
  | ctrl | status | cmd | arg | crc | timeout | silence | req | txlen | wval | txbuf => simp [hp, ignoresWrites] at h

theorem step_hostWrite_ignored {s : State} {n : Nat} {v : Word} {rest : List Input} (h : HostWrites s n v rest)
    (hn : ignoresWrites (hostRegOfWord n) = true) : step s = .next { s with inputs := rest } := by
  obtain ⟨p, hp, hs⟩ := step_hostWrite h
  rw [hs, hostWrite_ignored v _ (hp ▸ hn)]

/-- The word numbers of RXLEN, RESULT, RPLEN and RXBUF. -/
theorem ignoresWrites_hostRegOfWord {n : Nat} (h : (9 ≤ n ∧ n ≤ 11) ∨ (0x200 ≤ n ∧ n ≤ 0x2FF)) :
    ignoresWrites (hostRegOfWord n) = true := by
  rcases h with ⟨hl, hu⟩ | ⟨hl, hu⟩
  · interval_cases n <;> rfl
  · obtain ⟨i, rfl⟩ := Nat.exists_eq_add_of_le hl
    rw [hostRegOfWord_rxbuf i (by omega)]
    rfl

/-- The two bytes of a 16-bit value make it up. -/
theorem half_hi8_lo8 (v : Half) : half (hi8 v) (lo8 v) = v := by
  apply BitVec.eq_of_getLsbD_eq
  intro i hi
  by_cases h : i < 8
  · calc (half (hi8 v) (lo8 v)).getLsbD i
      _ = (lo8 v).getLsbD i := getLsbD_append_low _ _ h
      _ = v.getLsbD i := by simp [lo8, h]
  · calc (half (hi8 v) (lo8 v)).getLsbD i
      _ = (hi8 v).getLsbD (i - 8) := getLsbD_append_high _ _ (by omega)
      _ = v.getLsbD i := by simp [hi8, show i - 8 < 8 by omega, show 8 + (i - 8) = i by omega]

/-- Read after a write of a WVAL entry. -/
theorem Memory.get_setWval (m : Memory) (i a : Nat) (v : Half) :
    (setWval i v m).get a =
      if a = wvalOffset i + 1 then some (hi8 v) else if a = wvalOffset i then some (lo8 v) else m.get a := by
  simp [setWval]

/-- A write of a TXBUF entry with BUSY = 0. -/
theorem hostWrite_txbuf {s : State} {p : BitVec 12} {i : Nat} (v : Word) (hb : s.busy = false)
    (hp : hostRegAt p = .txbuf i) :
    hostWrite p v s = withMem (s.mem.set (txOffset i) (v.extractLsb' 0 8)) s := by
  simp [hostWrite, hp, unlessBusy, hb]

/-- A write of a WVAL entry with BUSY = 0. -/
theorem hostWrite_wval {s : State} {p : BitVec 12} {i : Nat} (v : Word) (hb : s.busy = false)
    (hp : hostRegAt p = .wval i) :
    hostWrite p v s = withMem (setWval i (v.extractLsb' 0 16) s.mem) s := by
  simp [hostWrite, hp, unlessBusy, hb]

end Sys2Proof.Machine

namespace Sys2Proof.Proofs

open Sys2Proof.Machine Sys2Proof.Safety

/-- Settles O42: neither access looks at the low two address bits, and in reset none looks at the address at all. -/
theorem misalignedAccessIsAligned : Obligations.MisalignedAccessIsAligned := by
  intro s p v rest h
  have turn (i : Input) : s.rstN = false ∨ transitionNow { s with inputs := i :: rest } = none :=
    h.imp_right fun hn => by simp [hn]
  have write (q : BitVec 12) : step { s with inputs := .write q v :: rest } = _ :=
    step_total_input (f := hostWrite q v) (fun _ => rfl) (turn _) rfl
  have read (q : BitVec 12) : step { s with inputs := .read q :: rest } = _ :=
    step_total_input (f := hostRead q) (fun _ => rfl) (turn _) rfl
  refine ⟨⟨_, write p, ?_⟩, ⟨_, read p, ?_⟩⟩
  · rw [write, hostWrite_aligned]
    rfl
  · rw [read, hostRead_aligned]
    rfl

/-- Settles O43: a reserved offset reads 0, and it and the registers that are the engine's ignore writes. -/
theorem reservedAccess : Obligations.ReservedAccess := by
  refine fun s n rest => ⟨fun hn => ?_, fun hn v hw => step_hostWrite_ignored hw (ignoresWrites_hostRegOfWord hn)⟩
  have hres : hostRegOfWord n = .reserved := hostRegOfWord_reserved n (by omega)
  refine ⟨fun hr => ?_, fun v hw => step_hostWrite_ignored hw (by rw [hres]; rfl)⟩
  rw [step_hostRead_current hr (.inr (by rw [hres]; rfl)), hres]
  rfl

/-- Settles O47: the write replaces the entry's own cells of memory. -/
theorem bufferWrites : Obligations.BufferWrites := by
  intro s i v rest hb
  refine ⟨fun hi h => ?_, fun hi h => ?_⟩
  · obtain ⟨p, hp, hs⟩ := step_hostWrite h
    rw [hostRegOfWord_txbuf i hi] at hp
    rw [hostWrite_txbuf (s := { s with inputs := rest }) v hb hp] at hs
    exact ⟨_, hs, by simp [txByte, byteAt], fun a ha => by simp [byteAt, ha], rfl⟩
  · obtain ⟨p, hp, hs⟩ := step_hostWrite h
    rw [hostRegOfWord_wval i hi] at hp
    rw [hostWrite_wval (s := { s with inputs := rest }) v hb hp] at hs
    refine ⟨_, hs, ?_, fun a hlo hhi => by simp [byteAt, Memory.get_setWval, hlo, hhi], rfl⟩
    simp [wval, byteAt, Memory.get_setWval, half_hi8_lo8]

end Sys2Proof.Proofs
end
section
/-! SUPPORT. Which byte of the buffers each agent's move can change (R58). -/

namespace Sys2Proof.Machine

open Sys2Proof.Safety

/-- Of all commands only the encoders write memory. -/
theorem Ran.mem {i : Instr} {s t : State} (h : Ran i s t) :
    t.mem = s.mem ∨ (opcodeOf i).toNat ∈ [0x10, 0x11, 0x12, 0x13] := by
  cases h with
  | encoder m n a f hi => exact .inr hi
  | nothing | crc | decoder | opens | closes | starts => exact .inl rfl

/-- No command resets the block. -/
theorem Ran.epoch {i : Instr} {s t : State} (h : Ran i s t) : t.epoch = s.epoch := by
  cases h <;> rfl

/-- An encoder with a payload template writes TXBUF only. -/
theorem encodePayload_get_other {s t : State} {a f : Byte} {payload : List Byte}
    (h : encodePayload a f payload s = .next t) (hl : payload.length ≤ 252) {x : Nat}
    (hx : ∀ j, j < 256 → x ≠ txOffset j) : t.mem.get x = s.mem.get x := by
  rw [encodePayload_eq] at h
  cases h
  exact get_encodePayload_other a f payload s x fun j hj => hx j (by omega)

/-- A command writes no byte outside TXBUF. -/
theorem exec_get_other {i : Instr} {s t : State} (h : exec i s = .next t) {x : Nat}
    (hx : ∀ j, j < 256 → x ≠ txOffset j) : t.mem.get x = s.mem.get x := by
  cases i with
  | encRaw a f =>
    simp only [exec, execEncRaw] at h
    split at h
    · cases h; rfl
    · split at h
      · cases h; rfl
      · next hl =>
        obtain ⟨hp, -⟩ := (rawLengthError_eq_false _ _ _).1 (by simpa using hl)
        cases h
        exact get_emitMem_other a f _ s x (hx _ (by omega)) (hx _ (by omega)) (hx _ (by omega)) (hx _ (by omega))
  | encRhr a =>
    simp only [exec, execEncRhr] at h
    split at h
    · cases h; rfl
    · exact encodePayload_get_other h (by simp [rhrPayload, bigEndian]) hx
  | encWmr a =>
    simp only [exec, execEncWmr] at h
    split at h
    · cases h; rfl
    · split at h
      · cases h; rfl
      · next hc =>
        exact encodePayload_get_other h (by simp only [wmrPayload_length, Config.wvalWords] at hc ⊢; omega) hx
  | encUnl a =>
    simp only [exec, execEncUnl] at h
    split at h
    · cases h; rfl
    · exact encodePayload_get_other h (by decide) hx
  | crcInit | crcByte | crcTx | crcRx | dec | chk | openPort | closePort | xchg | send =>
    rw [(exec_ran h).mem.resolve_right (by simp [opcodeOf])]

/-- Who may write the byte at the offset `a` in a step from `s` (R58). -/
inductive WritesByte (s : State) (a : Nat) : Prop where
  /-- The host writes a TXBUF entry. -/
  | hostTx (i : Nat) (v : Word) (rest : List Input) (hi : i < 256) (ha : a = txOffset i) (hb : s.busy = false)
      (hw : HostWrites s (0x100 + i) v rest)
  /-- The host writes a WVAL entry. -/
  | hostWval (i : Nat) (v : Word) (rest : List Input) (hi : i < 123) (ha : a = wvalOffset i ∨ a = wvalOffset i + 1)
      (hb : s.busy = false) (hw : HostWrites s (0x80 + i) v rest)
  /-- An encoder writes TXBUF. -/
  | encoder (i : Nat) (c : Instr) (hi : i < 256) (ha : a = txOffset i) (hp : s.phase = .exec)
      (hd : decode s.cmd = .ok c) (hc : (opcodeOf c).toNat ∈ [0x10, 0x11, 0x12, 0x13])
  /-- The receiver stores a character that it heard to its end at RXBUF[RXLEN]. -/
  | receiver (c : LineChar) (hf : s.rxlen.toNat < 256) (ha : a = rxOffset s.rxlen.toNat)
      (hp : s.phase = .rxWait ∨ s.phase = .rxActive) (hc : s.lineChar = some c) (hh : c.heard = true)

/-- Which entries a host write that changes memory went to, and that BUSY was 0. -/
theorem hostWrite_mem_owners (p : BitVec 12) (v : Word) (s : State) : (hostWrite p v s).mem ≠ s.mem →
    s.busy = false ∧ ((∃ i, hostRegAt p = .txbuf i) ∨ ∃ i, hostRegAt p = .wval i) := by
  cases hb : s.busy <;> cases hp : hostRegAt p
  all_goals simp [hostWrite, hp, unlessBusy, hb]

/-- No host write resets the block. -/
theorem hostWrite_epoch (p : BitVec 12) (v : Word) (s : State) : (hostWrite p v s).epoch = s.epoch := by
  cases hb : s.busy <;> cases hp : hostRegAt p
  all_goals simp [hostWrite, hp, unlessBusy, hb]

/-- Time changes the buffers by reception only. -/
theorem byteAt_advance (n : Nat) (s : State) (a : Nat) :
    ∃ u, Received (advanceTimers n s) u ∧ byteAt (advance n s) a = byteAt u a :=
  ⟨_, advanceRx_received n _, byteAt_congr (by simp [advance]) (by simp [advance]) a⟩

section
variable {s t : State} {a : Nat} {l : List Input}

theorem engineMove_writesByte (h : engineMove { s with inputs := l } = .next t) (hne : byteAt t a ≠ byteAt s a) :
    WritesByte s a := by
  rcases engineMove_cases h with ⟨-, rfl⟩ | ⟨hp, i, hd, he⟩ | ⟨-, -, rfl⟩
  · exact absurd rfl hne
  · have hepoch : t.epoch = s.epoch := (exec_ran he).epoch
    rcases (exec_ran he).mem with hm | hi
    · exact absurd (byteAt_congr hm hepoch a) hne
    · by_cases hx : ∀ j, j < 256 → a ≠ txOffset j
      · have hget : t.mem.get a = s.mem.get a := exec_get_other he hx
        exact absurd (by simp [byteAt, hget, hepoch]) hne
      · push Not at hx
        obtain ⟨j, hj, ha⟩ := hx
        exact .encoder j i hj ha hp hd hi
  · exact absurd rfl hne

theorem hostWrite_writesByte {p : BitVec 12} {v : Word} (ht : HasTurn s (.write p v) l)
    (hne : byteAt (hostWrite p v { s with inputs := l }) a ≠ byteAt s a) : WritesByte s a := by
  have hmem : (hostWrite p v { s with inputs := l }).mem ≠ s.mem :=
    fun hm => hne (byteAt_congr hm (hostWrite_epoch p v _) a)
  obtain ⟨hb, ⟨i, hp⟩ | ⟨i, hp⟩⟩ := hostWrite_mem_owners p v _ hmem
  · rw [hostWrite_txbuf v hb hp] at hne
    refine .hostTx i v l (hostRegAt_txbuf_lt hp) ?_ hb (hostWrites_of_turn ht hp (by simp))
    by_contra ha
    exact hne (by simp [byteAt, ha])
  · rw [hostWrite_wval v hb hp] at hne
    refine .hostWval i v l (hostRegAt_wval_lt hp) ?_ hb (hostWrites_of_turn ht hp (by simp))
    by_contra ha
    obtain ⟨hlo, hhi⟩ := not_or.1 ha
    exact hne (by simp [byteAt, Memory.get_setWval, hlo, hhi])

theorem advance_writesByte {n : Nat} (hne : byteAt (advance n { s with inputs := l }) a ≠ byteAt s a) :
    WritesByte s a := by
  obtain ⟨u, hu, hbyte⟩ := byteAt_advance n { s with inputs := l } a
  rw [hbyte] at hne
  cases hu with
  | nothing lc => exact absurd rfl hne
  | discarded => exact absurd rfl hne
  | stored c hc hh hp =>
    by_cases hf : s.rxlen.toNat < 256
    · refine .receiver c hf ?_ hp hc hh
      by_contra ha
      exact hne (by simp [byteAt, rxFits, hf, ha])
    · exact absurd (by simp [byteAt, rxFits, hf]) hne

end

/-- A step that begins and ends out of reset changes a byte only as one of its writers. -/
theorem step_writesByte {s t : State} {a : Nat} (h : step s = .next t) (hs : s.rstN = true) (ht : t.rstN = true)
    (hne : byteAt t a ≠ byteAt s a) : WritesByte s a := by
  rcases step_cases h with ⟨-, hn⟩ | ⟨-, -, -, hrest⟩ | ⟨i, rest, -, hn, hi, ha⟩ | ⟨hr, -⟩ | ⟨_, _, hr, -⟩
  · rcases transitionNow_cases hn with ⟨-, -, rfl⟩ | ⟨-, -, rfl⟩ | ⟨-, -, rfl⟩ <;> exact absurd rfl hne
  · rcases hrest with ⟨-, hm⟩ | ⟨-, -, rfl⟩ | ⟨-, -, rfl⟩
    · exact engineMove_writesByte (l := s.inputs) hm hne
    · rw [refill_eq] at hne
      exact absurd rfl hne
    · exact advance_writesByte hne
  · cases i with
    | write p v => cases ha; exact hostWrite_writesByte ⟨hs, hn, hi⟩ hne
    | read p =>
      cases ha
      unfold hostRead at hne
      split at hne <;> exact absurd rfl hne
    | engine => exact engineMove_writesByte ha hne
    | wait n => cases ha; exact advance_writesByte hne
    | charStart d p q =>
      cases ha
      exact absurd (byteAt_congr (startChar_mem d p q _) (startChar_epoch d p q _) a) hne
    | rst level =>
      cases level with
      | true => cases ha; exact absurd rfl hne
      | false => cases ha; cases ht
    | phy level => cases ha; exact absurd rfl hne
  · simp [hs] at hr
  · simp [hs] at hr

/-- Who may write a TXBUF entry. -/
theorem WritesByte.txbuf {s : State} {i : Nat} (h : WritesByte s (txOffset i)) (hi : i < 256) :
    (s.busy = false ∧ ∃ v rest, HostWrites s (0x100 + i) v rest) ∨
      (s.phase = .exec ∧ ∃ c, decode s.cmd = .ok c ∧ (opcodeOf c).toNat ∈ [0x10, 0x11, 0x12, 0x13]) := by
  cases h with
  | hostTx j v rest hj ha hb hw =>
    have hij : i = j := by simpa [txOffset] using ha
    exact .inl ⟨hb, v, rest, hij ▸ hw⟩
  | hostWval j v rest hj ha => unfold txOffset wvalOffset at ha; omega
  | encoder j c hj ha hp hd hc => exact .inr ⟨hp, c, hd, hc⟩
  | receiver c hf ha => unfold txOffset rxOffset at ha; omega

/-- Who may write an RXBUF entry. -/
theorem WritesByte.rxbuf {s : State} {i : Nat} (h : WritesByte s (rxOffset i)) :
    (s.phase = .rxWait ∨ s.phase = .rxActive) ∧ s.rxlen.toNat = i ∧ ∃ c, s.lineChar = some c ∧ c.heard = true := by
  cases h with
  | hostTx j v rest hj ha | encoder j c hj ha => unfold rxOffset txOffset at ha; omega
  | hostWval j v rest hj ha => unfold rxOffset wvalOffset at ha; omega
  | receiver c hf ha hp hc hh => exact ⟨hp, by unfold rxOffset at ha; omega, c, hc, hh⟩

/-- Who may write a byte of a WVAL entry. -/
theorem WritesByte.wval {s : State} {i a : Nat} (h : WritesByte s a) (ha : a = wvalOffset i ∨ a = wvalOffset i + 1)
    (hi : i < 123) : s.busy = false ∧ ∃ v rest, HostWrites s (0x80 + i) v rest := by
  cases h with
  | hostTx j v rest hj hx | encoder j c hj hx => unfold wvalOffset at ha; unfold txOffset at hx; omega
  | receiver c hf hx => unfold wvalOffset at ha; unfold rxOffset at hx; omega
  | hostWval j v rest hj hx hb hw =>
    have hij : i = j := by unfold wvalOffset at ha hx; omega
    exact ⟨hb, v, rest, hij ▸ hw⟩

/-- A WVAL entry that changes does so in one of its two bytes. -/
theorem byteAt_ne_of_wval_ne {s t : State} {i : Nat} (h : wval t i ≠ wval s i) :
    ∃ a, (a = wvalOffset i ∨ a = wvalOffset i + 1) ∧ byteAt t a ≠ byteAt s a := by
  by_contra hc
  push Not at hc
  exact h (by simp only [Machine.wval, hc _ (.inl rfl), hc _ (.inr rfl)])

end Sys2Proof.Machine

namespace Sys2Proof.Proofs

open Sys2Proof.Machine Sys2Proof.Safety

/-- Settles O55: a changed byte has a writer, and the offset says which. -/
theorem bufferOwners : Obligations.BufferOwners := by
  intro s t i h hs ht
  refine ⟨fun hi hne => (step_writesByte h hs ht hne).txbuf hi, fun _ hne => (step_writesByte h hs ht hne).rxbuf,
    fun hi hne => ?_⟩
  obtain ⟨a, ha, hbyte⟩ := byteAt_ne_of_wval_ne hne
  exact (step_writesByte h hs ht hbyte).wval ha hi

end Sys2Proof.Proofs
end
section
/-! SUPPORT. The decoder and the encoder, each undoing the other, and which words decode (R72, R76, R77). -/

namespace Sys2Proof

/-- A word decodes to the command its opcode selects, RSV being 0. -/
theorem decode_eq_ok_iff {w : Word} {i : Instr} :
    decode w = .ok i ↔ fieldRsv w = 0 ∧ decodeOp (fieldOp w) (fieldA8 w) (fieldB8 w) = some i := by
  unfold decode
  by_cases hr : fieldRsv w = 0
  · rw [if_pos hr]
    cases decodeOp (fieldOp w) (fieldA8 w) (fieldB8 w) <;> simp [hr]
  · rw [if_neg hr]
    exact ⟨fun h => (by cases h), fun h => absurd h.1 hr⟩

/-- A word decodes to no command where RSV is not 0 or its opcode selects none. -/
theorem decode_eq_error_iff {w : Word} :
    (∃ e, decode w = .error e) ↔ fieldRsv w ≠ 0 ∨ decodeOp (fieldOp w) (fieldA8 w) (fieldB8 w) = none := by
  unfold decode
  by_cases hr : fieldRsv w = 0
  · rw [if_pos hr]
    cases decodeOp (fieldOp w) (fieldA8 w) (fieldB8 w) <;> simp [hr]
  · rw [if_neg hr]
    exact ⟨fun _ => .inl hr, fun _ => ⟨_, rfl⟩⟩

/-- The opcode map finds a command from its own opcode and operands. -/
theorem decodeOp_opcodeOf (i : Instr) : decodeOp (opcodeOf i) (operandsOf i).1 (operandsOf i).2 = some i := by
  cases i <;> rfl

/-- The opcode map keeps both operands in the command it selects. -/
theorem operandsOf_of_decodeOp {op a b : Byte} {i : Instr} (h : decodeOp op a b = some i) :
    operandsOf i = (a, b) := by
  unfold decodeOp at h
  split at h <;> cases h <;> rfl

/-- The opcode map selects no command exactly for the opcodes outside R76's list. -/
theorem decodeOp_eq_none_iff {op a b : Byte} :
    decodeOp op a b = none ↔
      op.toNat ∉ [0x01, 0x02, 0x03, 0x04, 0x10, 0x20, 0x30, 0x31, 0x32, 0x33, 0x11, 0x12, 0x13, 0x21] := by
  unfold decodeOp
  split <;> simp_all

/-- R77's list of opcodes is that of the opcodes R76 leaves unassigned. -/
theorem decodeOp_eq_none_of_illegal {op a b : Byte}
    (h : op.toNat = 0 ∨ (0x05 ≤ op.toNat ∧ op.toNat ≤ 0x0F) ∨ (0x14 ≤ op.toNat ∧ op.toNat ≤ 0x1F) ∨
      (0x22 ≤ op.toNat ∧ op.toNat ≤ 0x2F) ∨ (0x34 ≤ op.toNat ∧ op.toNat ≤ 0xFF)) : decodeOp op a b = none := by
  refine decodeOp_eq_none_iff.2 fun hop => ?_
  simp only [List.mem_cons, List.not_mem_nil, or_false] at hop
  omega

/-- A word with RSV 0 that carries a command's opcode and operands decodes to it. -/
theorem decode_of_fields {w : Word} {i : Instr} (hr : fieldRsv w = 0) (ho : (fieldOp w).toNat = (opcodeOf i).toNat)
    (hab : operandsOf i = (fieldA8 w, fieldB8 w)) : decode w = .ok i := by
  have hop : fieldOp w = opcodeOf i := BitVec.eq_of_toNat_eq ho
  have hsel := decodeOp_opcodeOf i
  rw [hab, ← hop] at hsel
  exact decode_eq_ok_iff.2 ⟨hr, hsel⟩

/-- The decoder undoes the encoder. -/
theorem decode_encode (i : Instr) : decode (encode i) = .ok i :=
  decode_of_fields (fieldRsv_commandWord _ _ _) (by rw [encode, fieldOp_commandWord])
    (by rw [encode, fieldA8_commandWord, fieldB8_commandWord])

/-- The encoder undoes the decoder. -/
theorem encode_of_decode {w : Word} {i : Instr} (h : decode w = .ok i) : encode i = w := by
  obtain ⟨hr, hsel⟩ := decode_eq_ok_iff.1 h
  have hab : operandsOf i = (fieldA8 w, fieldB8 w) := operandsOf_of_decodeOp hsel
  calc encode i
    _ = commandWord (fieldOp w) (fieldA8 w) (fieldB8 w) := by rw [encode, hab, Machine.fieldOp_of_decode h]
    _ = w := commandWord_fields w hr

end Sys2Proof

namespace Sys2Proof.Proofs

/-- Settles O1: the encoder puts a command's opcode and operands in the fields the decoder reads, and a word whose
RSV is 0 is its fields. -/
theorem decodeEncodeAgree : Obligations.DecodeEncodeAgree :=
  ⟨decode_encode, fun _ _ => encode_of_decode⟩

/-- Settles O2: each opcode of the map is that of one command, and no other opcode selects any. -/
theorem opcodeMap : Obligations.OpcodeMap := by
  intro w op a b
  refine ⟨fun hr => ?_, fun h => ?_⟩
  · have select (i : Instr) (hab : operandsOf i = (a, b)) (ho : op = (opcodeOf i).toNat) : decode w = .ok i :=
      decode_of_fields hr ho hab
    exact ⟨select (.crcInit a b) rfl, select (.crcByte a b) rfl, select (.crcTx a b) rfl, select (.crcRx a b) rfl,
      select (.encRaw a b) rfl, select (.dec a b) rfl, select (.openPort a b) rfl, select (.closePort a b) rfl,
      select (.xchg a b) rfl, select (.send a b) rfl, select (.encRhr a b) rfl, select (.encWmr a b) rfl,
      select (.encUnl a b) rfl, select (.chk a b) rfl⟩
  · exact decode_eq_error_iff.2 (h.imp_right decodeOp_eq_none_iff.2)

/-- Settles O3: each of the six words is the encoding of its command. -/
theorem sampleWordsDecode : Obligations.SampleWordsDecode :=
  ⟨decode_encode (.crcInit 0x00 0x00), decode_encode (.crcByte 0xA5 0x00), decode_encode (.encRaw 0x01 0x41),
    decode_encode (.encRhr 0xF7 0x00), decode_encode (.chk 0x00 0xFF), decode_encode (.xchg 0x00 0x00)⟩

end Sys2Proof.Proofs
end
section
/-! SUPPORT. ARG goes through every command that has no operand in it unread, and its A16 through ENC.RAW (R73, R78). -/

namespace Sys2Proof.Machine

/-- ARG with another value. -/
def withArg (v : Word) (s : State) : State := { s with arg := v }

variable (v : Word) (s : State)

theorem decodeReceived_withArg :
    decodeReceived (withArg v s) = (withArg v (decodeReceived s).1, (decodeReceived s).2) := by
  have hbytes : rxBytes (withArg v s) 0 (withArg v s).rxlen.toNat = rxBytes s 0 s.rxlen.toNat := rfl
  simp only [decodeReceived, hbytes]
  split <;> rfl

/-- The commands that read nothing of ARG (R73). -/
def ignoresArg : Instr → Bool
  | .crcInit _ _ | .crcByte _ _ | .encUnl _ _ | .dec _ _ | .chk _ _ | .openPort _ _ | .closePort _ _ | .xchg _ _
  | .send _ _ => true
  | .crcTx _ _ | .crcRx _ _ | .encRaw _ _ | .encRhr _ _ | .encWmr _ _ => false

/-- A command that reads nothing of ARG gives the same state but for ARG. -/
theorem exec_withArg {i : Instr} (hi : ignoresArg i = true) :
    exec i (withArg v s) = onNext (withArg v) (exec i s) := by
  cases i with
  | crcInit | crcByte | closePort => rfl
  | encUnl => simp only [exec, execEncUnl, apply_ite (onNext (withArg v))]; rfl
  | dec => simp only [exec, execDec, decodeReceived_withArg]; rfl
  | chk =>
    simp only [exec, execChk, decodeReceived_withArg]
    obtain ⟨t, c⟩ := decodeReceived s
    cases c <;> rfl
  | openPort => simp only [exec, execOpenPort, apply_ite (onNext (withArg v))]; rfl
  | xchg | send => simp only [exec, execXchg, execSend, apply_ite (onNext (withArg v))]; rfl
  | crcTx | crcRx | encRaw | encRhr | encWmr => cases hi

/-- ENC.RAW reads of ARG its upper half alone. -/
theorem exec_encRaw_withArg {v : Word} (hv : v.extractLsb' 16 16 = argB s) (a f : Byte) :
    exec (.encRaw a f) (withArg v s) = onNext (withArg v) (exec (.encRaw a f) s) := by
  have hb : argB (withArg v s) = argB s := hv
  simp only [exec, execEncRaw, hb, apply_ite (onNext (withArg v))]
  rfl

/-- A command through which the change of ARG goes ends in the same state but for ARG. -/
theorem exec_next_withArg {v : Word} {s : State} {i : Instr}
    (h : exec i (withArg v s) = onNext (withArg v) (exec i s)) :
    ∃ t, exec i s = .next t ∧ exec i { s with arg := v } = .next { t with arg := v } := by
  obtain ⟨t, ht⟩ := exec_next i s
  rw [ht] at h
  exact ⟨t, ht, h⟩

end Sys2Proof.Machine

namespace Sys2Proof.Proofs

open Sys2Proof.Machine

/-- Settles O4: a don't-care field of the word is not given to the meaning, and one of ARG goes through it unread. -/
theorem dontCareFieldsHaveNoEffect : Obligations.DontCareFieldsHaveNoEffect := by
  intro s x a b a' b'
  refine ⟨rfl, rfl, rfl, rfl, rfl, rfl, rfl, rfl, rfl, rfl, rfl, rfl, rfl, fun v i hi => ?_, fun v => ?_⟩
  · have harg : ignoresArg i = true := by
      simp only [List.mem_cons, List.not_mem_nil, or_false] at hi
      rcases hi with rfl | rfl | rfl | rfl | rfl | rfl | rfl | rfl | rfl <;> rfl
    exact exec_next_withArg (exec_withArg v s harg)
  · have hb : (s.arg.extractLsb' 16 16 ++ v).extractLsb' 16 16 = argB s := by
      rw [extractLsb'_append_high _ _ (Nat.le_refl 16)]
      exact BitVec.extractLsb'_eq_self
    exact exec_next_withArg (exec_encRaw_withArg s hb a b)

end Sys2Proof.Proofs
end
section
/-! SUPPORT. Acceptance and the engine's move as steps (R74, R77), and that nothing else starts a command (R75). -/

namespace Sys2Proof.Machine

open Sys2Proof.Safety

/-! ### Acceptance and the engine's move -/

/-- A host write to CMD with BUSY = 0 in its turn. -/
theorem step_writeCmd_accepted {s : State} {w : Word} {rest : List Input} (h : HostWrites s 2 w rest)
    (hb : s.busy = false) : step s = .next (accept w { s with inputs := rest }) := by
  obtain ⟨p, hp, hs⟩ := step_hostWrite h
  have hp : hostRegAt p = .cmd := hp
  rw [hs]
  simp [hostWrite, hp, unlessBusy, hb]

/-- The engine's move in its turn. -/
theorem step_engine {s : State} {rest : List Input} (h : HasTurn s .engine rest) :
    step s = engineMove { s with inputs := rest } := by
  obtain ⟨hr, hn, hi⟩ := h
  exact step_input hr hn hi

/-- The engine's move in EXEC with a legal word in CMD. -/
theorem engineMove_ok {s : State} {i : Instr} (hp : s.phase = .exec) (hd : decode s.cmd = .ok i) :
    engineMove s = exec i s := by
  simp [engineMove, hp, hd]

/-- The engine's move in EXEC with an illegal word in CMD (R77). -/
theorem engineMove_error {s : State} {e : DecodeError} (hp : s.phase = .exec) (hd : decode s.cmd = .error e) :
    engineMove s = .next (complete .illegalCommand s) := by
  simp [engineMove, hp, hd, finish]

/-- The engine's turn in EXEC with a legal word in CMD. -/
theorem step_engine_ok {s : State} {i : Instr} {rest : List Input} (h : HasTurn s .engine rest)
    (hp : s.phase = .exec) (hd : decode s.cmd = .ok i) : step s = exec i { s with inputs := rest } := by
  rw [step_engine h]
  exact engineMove_ok hp hd

/-- The engine's turn in EXEC with an illegal word in CMD. -/
theorem step_engine_error {s : State} {e : DecodeError} {rest : List Input} (h : HasTurn s .engine rest)
    (hp : s.phase = .exec) (hd : decode s.cmd = .error e) :
    step s = .next (complete .illegalCommand { s with inputs := rest }) := by
  rw [step_engine h]
  exact engineMove_error hp hd

/-- In EXEC, out of reset, the next input has its turn. -/
theorem hasTurn_of_exec {s : State} {i : Input} {rest : List Input} (hr : s.rstN = true) (hp : s.phase = .exec)
    (hi : s.inputs = i :: rest) : HasTurn s i rest :=
  ⟨hr, transitionNow_exec hp, hi⟩

/-- Two steps, one after the other. -/
theorem runSteps_two {s t u : State} (h : step s = .next t) (k : step t = .next u) : runSteps 2 s = some u := by
  simp [runSteps, h, k]

/-! ### What does not start a command -/

/-- If a command runs in `t`, it is the one that runs in `s`. -/
def StartsNoCommand (s t : State) : Prop := t.busy = true → s.busy = true ∧ t.op = s.op ∧ t.cmd = s.cmd

/-- An operation that leaves BUSY, `op` and CMD starts no command. -/
theorem StartsNoCommand.of_kept {s t : State} (hb : t.busy = s.busy) (ho : t.op = s.op) (hc : t.cmd = s.cmd) :
    StartsNoCommand s t :=
  fun h => ⟨hb ▸ h, ho, hc⟩

/-- An operation that leaves the engine idle starts no command. -/
theorem StartsNoCommand.of_idle {s t : State} (hb : t.busy = false) : StartsNoCommand s t :=
  fun h => by simp [hb] at h

theorem StartsNoCommand.trans {s t u : State} (h : StartsNoCommand s t) (k : StartsNoCommand t u) :
    StartsNoCommand s u := by
  intro hb
  obtain ⟨hbt, ho, hc⟩ := k hb
  obtain ⟨hbs, ho', hc'⟩ := h hbt
  exact ⟨hbs, ho.trans ho', hc.trans hc'⟩

/-- A command ends, or goes on with its wait for silence. -/
theorem Ran.startsNoCommand {i : Instr} {s t : State} (h : Ran i s t) : StartsNoCommand s t := by
  cases h with
  | starts => exact .of_kept rfl rfl rfl
  | nothing | crc | encoder | decoder | opens | closes => exact .of_idle rfl

theorem engineMove_startsNoCommand {s t : State} (h : engineMove s = .next t) : StartsNoCommand s t := by
  rcases engineMove_cases h with ⟨-, rfl⟩ | ⟨-, i, -, he⟩ | ⟨-, -, rfl⟩
  · exact .of_kept rfl rfl rfl
  · exact (exec_ran he).startsNoCommand
  · exact .of_idle rfl

theorem transitionNow_startsNoCommand {s t : State} (h : transitionNow s = some t) : StartsNoCommand s t := by
  rcases transitionNow_cases h with ⟨-, -, rfl⟩ | ⟨-, -, rfl⟩ | ⟨-, -, rfl⟩
  · exact .of_kept rfl rfl rfl
  · exact .of_idle rfl
  · exact .of_idle rfl

/-- At the end of phase TX, SEND completes and XCHG goes on. -/
theorem endTx_startsNoCommand (s : State) : StartsNoCommand s (endTx s) := by
  unfold endTx
  split
  · exact .of_idle rfl
  · exact .of_kept rfl rfl rfl

theorem advanceTx_startsNoCommand (n : Nat) (s : State) : StartsNoCommand s (advanceTx n s) := by
  unfold advanceTx
  split
  · exact .of_kept rfl rfl rfl
  · split
    · exact .of_kept rfl rfl rfl
    · unfold endChar
      split
      · exact .of_kept rfl rfl rfl
      · exact endTx_startsNoCommand { s with idle := 0 }

theorem advanceRx_startsNoCommand (n : Nat) (s : State) : StartsNoCommand s (advanceRx n s) :=
  .of_kept (advanceRx_busy n s) (advanceRx_op n s) (advanceRx_cmd n s)

theorem advance_startsNoCommand (n : Nat) (s : State) : StartsNoCommand s (advance n s) :=
  have hrx : StartsNoCommand s (advanceRx n (advanceTimers n s)) := advanceRx_startsNoCommand n (advanceTimers n s)
  hrx.trans (advanceTx_startsNoCommand n _)

theorem passTime_startsNoCommand (n : Nat) (s : State) : StartsNoCommand s (passTime n s) :=
  advance_startsNoCommand _ { s with inputs := _ }

theorem startChar_startsNoCommand (d : Byte) (p q : Bool) (s : State) : StartsNoCommand s (startChar d p q s) :=
  .of_kept (startChar_busy d p q s) (startChar_op d p q s) (startChar_cmd d p q s)

theorem refill_startsNoCommand (s : State) : StartsNoCommand s (refill s) := by
  rw [refill_eq]
  exact .of_kept rfl rfl rfl

theorem hostRead_startsNoCommand (p : BitVec 12) (s : State) : StartsNoCommand s (hostRead p s) := by
  unfold hostRead
  split <;> exact .of_kept rfl rfl rfl

theorem unlessBusy_startsNoCommand {s t : State} (h : s.busy = true ∨ StartsNoCommand s t) :
    StartsNoCommand s (unlessBusy s t) := by
  unfold unlessBusy
  split
  · exact .of_kept rfl rfl rfl
  · next hb => exact h.resolve_left hb

/-- A host write starts no command, unless it goes to CMD with BUSY = 0. -/
theorem hostWrite_startsNoCommand {p : BitVec 12} {s : State} (v : Word)
    (h : hostRegAt p = .cmd → s.busy = true) : StartsNoCommand s (hostWrite p v s) := by
  unfold hostWrite
  cases hp : hostRegAt p with
  | cmd => exact unlessBusy_startsNoCommand (.inl (h hp))
  | arg | crc | timeout | silence | req | txlen | wval | txbuf =>
    exact unlessBusy_startsNoCommand (.inr (.of_kept rfl rfl rfl))
  | ctrl | status | rxlen | result | rplen | rxbuf | reserved => exact .of_kept rfl rfl rfl

theorem applyInputInReset_startsNoCommand (i : Input) (s : State) : StartsNoCommand s (applyInputInReset i s) := by
  cases i with
  | write | read | engine | phy => exact .of_kept rfl rfl rfl
  | wait n => exact advanceRx_startsNoCommand n (cutReception s)
  | charStart d p q => exact startChar_startsNoCommand d p q s
  | rst level =>
    cases level with
    | true => exact .of_idle rfl
    | false => exact .of_kept rfl rfl rfl

/-- An input starts no command, unless it is a host write to CMD with BUSY = 0. -/
theorem applyInput_startsNoCommand {i : Input} {s t : State} (h : applyInput i s = .next t)
    (hi : ∀ p v, i = .write p v → hostRegAt p = .cmd → s.busy = true) : StartsNoCommand s t := by
  cases i with
  | write p v => cases h; exact hostWrite_startsNoCommand v (hi p v rfl)
  | read p => cases h; exact hostRead_startsNoCommand p s
  | engine => exact engineMove_startsNoCommand h
  | wait n => cases h; exact passTime_startsNoCommand n s
  | charStart d p q => cases h; exact startChar_startsNoCommand d p q s
  | rst level =>
    cases level with
    | true => cases h; exact .of_kept rfl rfl rfl
    | false => cases h; exact .of_idle rfl
  | phy level => cases h; exact .of_kept rfl rfl rfl

/-- A step starts no command, unless it takes a host write to CMD with BUSY = 0. -/
theorem step_startsNoCommand {s t : State} (h : step s = .next t)
    (hw : ∀ w rest, HostWrites s 2 w rest → s.busy = true) : StartsNoCommand s t := by
  rcases step_cases h with ⟨-, hn⟩ | ⟨-, -, -, hrest⟩ | ⟨i, rest, hr, hn, hi, ha⟩ | ⟨-, -, rfl⟩ | ⟨i, rest, -, -, rfl⟩
  · exact transitionNow_startsNoCommand hn
  · rcases hrest with ⟨-, hm⟩ | ⟨-, -, rfl⟩ | ⟨-, -, rfl⟩
    · exact engineMove_startsNoCommand hm
    · exact refill_startsNoCommand s
    · exact passTime_startsNoCommand _ s
  · refine applyInput_startsNoCommand (s := { s with inputs := rest }) ha ?_
    rintro p v rfl hp
    exact hw v rest (hostWrites_of_turn ⟨hr, hn, hi⟩ hp (by decide))
  · exact refill_startsNoCommand s
  · exact applyInputInReset_startsNoCommand i { s with inputs := rest }

end Sys2Proof.Machine

namespace Sys2Proof.Proofs

open Sys2Proof.Machine Sys2Proof.Safety

/-- Settles O5: the engine's turn, the move with no input left, and the engine's turn after acceptance all run the
decoded word. -/
theorem stepRunsDecodedCommand : Obligations.StepRunsDecodedCommand := by
  refine ⟨fun s i rest hp ht hd => step_engine_ok ht hp hd, fun s i hr hp hi hd => ?_, fun s w i hd => ?_⟩
  · rw [step_rest hr (transitionNow_exec hp) hi, restMove, hp]
    exact engineMove_ok hp hd
  · have hw : s.withFetchWord 32 w.toNat = placeCommand w s := by
      rw [State.withFetchWord, Nat.mod_eq_of_lt w.isLt, BitVec.ofNat_toNat, BitVec.setWidth_eq]
    rw [hw]
    exact step_engine_ok (hasTurn_of_exec rfl rfl rfl) rfl hd

/-- Settles O7: the write is the step of acceptance or of R45, and the engine's turn runs or completes the word. -/
theorem commandAcceptance : Obligations.CommandAcceptance := by
  refine ⟨fun s w rest hw => ⟨step_writeCmd_accepted hw, fun hb => ?_⟩,
    fun s rest hp ht => ⟨fun i => step_engine_ok ht hp, fun e => step_engine_error ht hp⟩⟩
  exact (busyWritesAreIgnored s 2 w rest hw hb).1 (by omega)

/-- Settles O8: the acceptance's step, then the engine's on a word that does not decode. -/
theorem illegalWordCompletes : Obligations.IllegalWordCompletes := by
  intro s w rest hb hp ho hw hill
  have hacc : step s = .next (accept w { s with inputs := .engine :: rest }) := step_writeCmd_accepted hw hb
  obtain ⟨-, -, hr, -, -⟩ := hw
  obtain ⟨e, hd⟩ : ∃ e, decode w = .error e :=
    decode_eq_error_iff.2 (hill.imp_right decodeOp_eq_none_of_illegal)
  have heng := step_engine_error (s := accept w { s with inputs := .engine :: rest })
    (hasTurn_of_exec hr rfl rfl) rfl hd
  refine ⟨⟨_, hacc, rfl, rfl, rfl⟩, ?_⟩
  rw [runSteps_two hacc heng]
  simp [complete, accept, hb, hp, ho]

/-- Settles O9: no other step starts a command, and a write to CMD with BUSY = 0 is an acceptance. -/
theorem commandStartsOnlyByAcceptance : Obligations.CommandStartsOnlyByAcceptance := by
  intro s t h ht
  refine ⟨fun hb => ?_, fun hb => (step_startsNoCommand h (fun _ _ _ => hb) ht).2⟩
  by_cases hw : ∃ w rest, HostWrites s 2 w rest
  · obtain ⟨w, rest, hw⟩ := hw
    rw [step_writeCmd_accepted hw hb] at h
    cases h
    exact ⟨w, rest, hw, rfl⟩
  · obtain ⟨hbusy, -⟩ := step_startsNoCommand h (fun w rest hwr => absurd ⟨w, rest, hwr⟩ hw) ht
    simp [hb] at hbusy

end Sys2Proof.Proofs
end
section
/-! SUPPORT. The whole CRC function (R90, R91, R93) and what each CRC command answers (R94 to R97). -/

namespace Sys2Proof.Machine

open Sys2Proof.Safety

/-! ### The function -/

/-- The iterations of R90 as a fold in which only their number counts. -/
theorem crcShifts_eq_foldl (n : Nat) :
    ∀ c : Half, crcShifts n c = (List.range n).foldl (fun x _ => crcShift x) c := by
  induction n with
  | zero => exact fun _ => rfl
  | succ n ih =>
    intro c
    rw [List.range_succ_eq_map, List.foldl_cons, List.foldl_map]
    exact ih (crcShift c)

/-- The residue, from any register: its own two bytes, low byte first, bring it to 0. -/
theorem crcFold_own_bytes (c : Half) : [lo8 c, hi8 c].foldl crcStep c = 0 :=
  calc crcStep (crcStep c (lo8 c)) (hi8 c)
    _ = crcStep ((hi8 c).setWidth 16) (hi8 c) := by rw [crcStep_lo8]
    _ = 0 := crcStep_self (hi8 c)

theorem crc16_append_own_crc (bs : List Byte) : crc16 (bs ++ [lo8 (crc16 bs), hi8 (crc16 bs)]) = 0 := by
  rw [crc16_append, crcFold_own_bytes]

/-- From any register, changing one byte changes the result: the step is one to one in the byte, and the bytes after
it keep different registers apart. -/
theorem crcFold_set_ne (bs : List Byte) (v : Byte) :
    ∀ (c : Half) (j : Nat), j < bs.length → bs[j]? ≠ some v →
      (bs.set j v).foldl crcStep c ≠ bs.foldl crcStep c := by
  induction bs with
  | nil => exact fun _ _ hj => absurd hj (Nat.not_lt_zero _)
  | cons b bs ih =>
    intro c j hj hv
    cases j with
    | zero =>
      intro h
      have hb : v = b := crcStep_inj_right (crcFold_inj bs h)
      exact hv (congrArg some hb.symm)
    | succ j => exact ih (crcStep c b) j (Nat.lt_of_succ_lt_succ hj) hv

/-! ### The commands -/

section
variable {a b : Byte} {s : State}

theorem exec_crcInit : exec (.crcInit a b) s = .next (complete .ok { s with crc := 0xFFFF }) := rfl

theorem exec_crcByte : exec (.crcByte a b) s = .next (complete .ok { s with crc := crcStep s.crc a }) := rfl

theorem exec_crcTx_outside (h : (argA s).toNat + (argB s).toNat > 256) :
    exec (.crcTx a b) s = .next (complete .lengthError s) :=
  if_pos h

theorem exec_crcTx_inside (h : (argA s).toNat + (argB s).toNat ≤ 256) :
    exec (.crcTx a b) s =
      .next (complete .ok { s with crc := crc16 (txBytes s (argA s).toNat (argB s).toNat) }) :=
  if_neg (Nat.not_lt.2 h)

theorem exec_crcRx_outside (h : (argA s).toNat + (argB s).toNat > 256) :
    exec (.crcRx a b) s = .next (complete .lengthError s) :=
  if_pos h

theorem exec_crcRx_inside (h : (argA s).toNat + (argB s).toNat ≤ 256) :
    exec (.crcRx a b) s =
      .next (complete .ok { s with crc := crc16 (rxBytes s (argA s).toNat (argB s).toNat) }) :=
  if_neg (Nat.not_lt.2 h)

end

/-- A command that ends in `t` leaves the rest of the sequence to run from `t`. -/
theorem runCommands_cons {i : Instr} {s t : State} (h : exec i s = .next t) (is : List Instr) :
    runCommands (i :: is) s = runCommands is t := by
  rw [runCommands, h]

/-- CRC.BYTE over a sequence folds the step over it from the register it finds. -/
theorem runCommands_crcBytes (bs : List Byte) :
    ∀ s : State, ∃ t, runCommands (bs.map (fun b => .crcByte b 0)) s = some t ∧ t.crc = bs.foldl crcStep s.crc := by
  induction bs with
  | nil => exact fun s => ⟨s, rfl, rfl⟩
  | cons b bs ih =>
    intro s
    rw [List.map_cons, runCommands_cons exec_crcByte]
    exact ih _

end Sys2Proof.Machine

namespace Sys2Proof.Proofs

open Sys2Proof.Machine

/-- Settles O10: the eight iterations are a fold of `crcShift`. -/
theorem crcByteStep : Obligations.CrcByteStep :=
  fun c b => crcShifts_eq_foldl 8 (c ^^^ b.setWidth 16)

/-- Settles O11: the residue, the one changed byte and the check value, each by its lemma or by computation. -/
theorem crcDetectsChanges : Obligations.CrcDetectsChanges :=
  ⟨crc16_append_own_crc, fun bs j v hj hv => crcFold_set_ne bs v 0xFFFF j hj hv, by decide +kernel⟩

/-- Settles O12: the answer of CRC.INIT, its completion written out. -/
theorem crcInitResult : Obligations.CrcInitResult :=
  fun _ _ _ => exec_crcInit

/-- Settles O13: the answer of CRC.BYTE, three computed values, and the fold from CRC.INIT's 0xFFFF. -/
theorem crcByteResult : Obligations.CrcByteResult := by
  refine ⟨fun _ _ _ => exec_crcByte, by decide, by decide, by decide, fun bs s => ?_⟩
  rw [runCommands_cons exec_crcInit]
  exact runCommands_crcBytes bs _

/-- Settles O14: the answers of CRC.TX on both sides of the limit, and two computed values. -/
theorem crcTxResult : Obligations.CrcTxResult :=
  ⟨fun _ _ _ => ⟨exec_crcTx_outside, exec_crcTx_inside⟩, rfl, by decide +kernel⟩

/-- Settles O15: the answers of CRC.RX on both sides of the limit, the residue of a frame, whose last two bytes are its
own CRC (R82), and two computed values. -/
theorem crcRxResult : Obligations.CrcRxResult :=
  ⟨fun _ _ _ => ⟨exec_crcRx_outside, exec_crcRx_inside⟩, fun a f payload => crc16_append_own_crc ([a, f] ++ payload),
    by decide +kernel, by decide +kernel⟩

end Sys2Proof.Proofs
end
section
/-! SUPPORT. What the encoders (R98 to R101, R126 to R128) and DEC (R103, R106) answer, and the frame's way back through
DEC (R107). -/

namespace Sys2Proof.Machine

open Sys2Proof.Safety

/-! ### The encoders -/

section
variable {a f : Byte} {s : State}

/-- R98: an address above 247 ends each encoder before it writes anything. -/
theorem exec_encoder_invalidAddress (ha : a.toNat > 247) :
    ∀ i ∈ [Instr.encRaw a f, Instr.encRhr a f, Instr.encWmr a f, Instr.encUnl a f],
      exec i s = .next (complete .invalidAddress s) := by
  have h : addressInvalid a = true := by simpa [addressInvalid_eq] using ha
  simp only [List.forall_mem_cons]
  exact ⟨if_pos h, if_pos h, if_pos h, if_pos h, by simp⟩

theorem addressInvalid_eq_false (ha : a.toNat ≤ 247) : addressInvalid a = false := by
  simpa [addressInvalid_eq] using ha

/-- ENC.RAW emits the frame of a payload within the limits of R99. -/
theorem exec_encRaw_allowed (ha : a.toNat ≤ 247)
    (hp : PayloadAllowed f (argB s).toNat (txByte s 4 ++ txByte s 5).toNat) :
    exec (.encRaw a f) s = .next (complete .ok { s with
      mem := emitMem a f (argB s).toNat s, txlen := BitVec.ofNat 9 ((argB s).toNat + 4), raddr := a, rfunc := f }) := by
  simp [exec, execEncRaw, addressInvalid_eq_false ha, (rawLengthError_eq_false f _ s).2 hp, emit_eq]

theorem exec_encRaw_refused (ha : a.toNat ≤ 247)
    (hp : ¬PayloadAllowed f (argB s).toNat (txByte s 4 ++ txByte s 5).toNat) :
    exec (.encRaw a f) s = .next (complete .lengthError s) := by
  rw [← rawLengthError_eq_false, Bool.not_eq_false] at hp
  simp [exec, execEncRaw, addressInvalid_eq_false ha, hp, finish]

theorem exec_encRhr_valid (ha : a.toNat ≤ 247) :
    exec (.encRhr a f) s = encodePayload a 0x03 (rhrPayload s) s := by
  simp [exec, execEncRhr, addressInvalid_eq_false ha]

theorem exec_encUnl_valid (ha : a.toNat ≤ 247) :
    exec (.encUnl a f) s = encodePayload a 0x28 unlockPayload s := by
  simp [exec, execEncUnl, addressInvalid_eq_false ha]

/-- ENC.WMR encodes the payload of a count within the limits of R99. -/
theorem exec_encWmr_allowed (ha : a.toNat ≤ 247) (hc : 1 ≤ (argB s).toNat ∧ (argB s).toNat ≤ 123) :
    exec (.encWmr a f) s = encodePayload a 0x10 (wmrPayload s) s := by
  have h : ¬((argB s).toNat < 1 ∨ (argB s).toNat > Config.wvalWords) := by
    simp only [Config.wvalWords]
    omega
  simp only [exec, execEncWmr, addressInvalid_eq_false ha, Bool.false_eq_true, if_false, if_neg h]

theorem exec_encWmr_refused (ha : a.toNat ≤ 247) (hc : (argB s).toNat < 1 ∨ (argB s).toNat > 123) :
    exec (.encWmr a f) s = .next (complete .lengthError s) := by
  simp only [exec, execEncWmr, addressInvalid_eq_false ha, Bool.false_eq_true, if_false]
  exact if_pos hc

end

/-- TXLEN holds the length of every frame an encoder builds. -/
theorem ofNat_frameLength {p : Nat} (hp : p ≤ 252) : (BitVec.ofNat 9 (p + 4)).toNat = p + 4 :=
  Nat.mod_eq_of_lt (by omega)

/-! ### DEC -/

/-- R103's comparison on RXBUF[0..RXLEN): the CRC of all bytes but the last two is what those two hold. -/
def ReceivedCrcMatches (s : State) : Prop :=
  crc16 (rxBytes s 0 (s.rxlen.toNat - 2)) = rxByte s (s.rxlen.toNat - 1) ++ rxByte s (s.rxlen.toNat - 2)

section
variable {x y : Byte} {s : State}

theorem exec_dec_tooShort (hn : s.rxlen.toNat < 4) :
    exec (.dec x y) s = .next (complete .frameTooShort (setResult .clear 0 s)) := by
  simp only [exec, execDec, decodeReceived, decodeFrame_rxBytes, if_pos hn, finish]

theorem exec_dec_crcMismatch (hn : 4 ≤ s.rxlen.toNat) (hv : ¬ReceivedCrcMatches s) :
    exec (.dec x y) s = .next (complete .crcMismatch (setResult .clear 0 s)) := by
  have h : decodeFrame (rxBytes s 0 s.rxlen.toNat) = .crcMismatch := by
    rw [decodeFrame_rxBytes]
    exact (if_neg (Nat.not_lt.2 hn)).trans (if_pos hv)
  simp only [exec, execDec, decodeReceived, h, finish]

/-- Past both tests bit 7 of the function decides (R103). -/
theorem decodeFrame_of_crcMatches (hn : 4 ≤ s.rxlen.toNat) (hv : ReceivedCrcMatches s) :
    decodeFrame (rxBytes s 0 s.rxlen.toNat) =
      if (rxByte s 1).getLsbD 7 then .exception (rxByte s 0) (rxByte s 1) (rxByte s 2) (s.rxlen.toNat - 4)
      else .data (rxByte s 0) (rxByte s 1) (s.rxlen.toNat - 4) := by
  rw [decodeFrame_rxBytes]
  exact (if_neg (Nat.not_lt.2 hn)).trans (if_neg (not_not_intro hv))

theorem exec_dec_exception (hn : 4 ≤ s.rxlen.toNat) (hv : ReceivedCrcMatches s) (hf : (rxByte s 1).getLsbD 7 = true) :
    exec (.dec x y) s = .next (complete .ok (setResult
      { kind := .exception, excode := rxByte s 2, func := rxByte s 1, addr := rxByte s 0 } (s.rxlen.toNat - 4) s)) := by
  simp only [exec, execDec, decodeReceived, decodeFrame_of_crcMatches hn hv, hf, if_true, finish]

theorem exec_dec_data (hn : 4 ≤ s.rxlen.toNat) (hv : ReceivedCrcMatches s) (hf : (rxByte s 1).getLsbD 7 = false) :
    exec (.dec x y) s = .next (complete .ok (setResult
      { kind := .data, excode := 0, func := rxByte s 1, addr := rxByte s 0 } (s.rxlen.toNat - 4) s)) := by
  simp only [exec, execDec, decodeReceived, decodeFrame_of_crcMatches hn hv, hf, Bool.false_eq_true, if_false, finish]

/-- Only a frame of 4 bytes or more with a matching CRC makes DEC complete with OK. -/
theorem crcMatches_of_exec_dec_ok {t : State} (h : exec (.dec x y) s = .next t) (hc : t.code = .ok) :
    4 ≤ s.rxlen.toNat ∧ ReceivedCrcMatches s := by
  by_cases hn : s.rxlen.toNat < 4
  · rw [exec_dec_tooShort hn] at h
    cases h
    cases hc
  · refine ⟨Nat.not_lt.1 hn, ?_⟩
    by_contra hv
    rw [exec_dec_crcMismatch (Nat.not_lt.1 hn) hv] at h
    cases h
    cases hc

end

/-! ### A frame with its CRC, and with one byte changed -/

theorem lo8_append (hi lo : Byte) : lo8 (hi ++ lo) = lo :=
  BitVec.extractLsb'_append_eq_right

theorem hi8_append (hi lo : Byte) : hi8 (hi ++ lo) = hi :=
  BitVec.extractLsb'_append_eq_left

/-- Only a register's own bytes, low byte first, bring it to 0. -/
theorem crcFold_pair_eq_zero_iff {c : Half} {lo hi : Byte} : [lo, hi].foldl crcStep c = 0 ↔ c = hi ++ lo := by
  have own : [lo, hi].foldl crcStep (hi ++ lo) = 0 := by
    simpa only [lo8_append, hi8_append] using crcFold_own_bytes (hi ++ lo)
  exact ⟨fun h => crcFold_inj [lo, hi] (h.trans own.symm), fun h => h ▸ own⟩

/-- R93's residue as a test: the CRC matches exactly when the CRC over the whole frame is 0. -/
theorem crcMatches_iff {s : State} (hn : 2 ≤ s.rxlen.toNat) :
    ReceivedCrcMatches s ↔ crc16 (rxBytes s 0 s.rxlen.toNat) = 0 := by
  obtain ⟨m, hm⟩ := Nat.exists_eq_add_of_le' hn
  have last : rxBytes s m 2 = [rxByte s m, rxByte s (m + 1)] := rfl
  rw [ReceivedCrcMatches, hm, rxBytes_append, Nat.zero_add, last, crc16_append, crcFold_pair_eq_zero_iff]
  rfl

/-- Received bytes that differ in the `j`-th alone are the first ones with that entry replaced. -/
theorem rxBytes_eq_set {s s' : State} {n j : Nat} (h : ∀ i, i < n → i ≠ j → rxByte s' i = rxByte s i) :
    rxBytes s' 0 n = (rxBytes s 0 n).set j (rxByte s' j) := by
  apply List.ext_getElem (by simp)
  intro i hi hi'
  rw [rxBytes_getElem, List.getElem_set, rxBytes_getElem, Nat.zero_add]
  split
  · next he => rw [he]
  · next he => exact h i (by simpa using hi) (Ne.symm he)

/-! ### A frame received as it was built -/

/-- R82's frame read back from RXBUF: each part stands in its place. -/
theorem rxBytes_eq_frameBytes {u : State} {a f : Byte} {payload : List Byte} {p : Nat} (hp : payload.length = p)
    (h : rxBytes u 0 (p + 4) = frameBytes a f payload) :
    rxByte u 0 = a ∧ rxByte u 1 = f ∧ rxBytes u 2 p = payload ∧
      rxByte u (2 + p) = lo8 (crc16 ([a, f] ++ payload)) := by
  have cut : rxBytes u 0 (p + 4) = rxBytes u 0 2 ++ rxBytes u 2 p ++ rxBytes u (2 + p) 2 := by
    rw [show p + 4 = 2 + p + 2 by omega, rxBytes_append, rxBytes_append, Nat.zero_add, Nat.zero_add]
  obtain ⟨front, crc⟩ := List.append_inj (cut.symm.trans h) (by simp; omega)
  obtain ⟨header, middle⟩ := List.append_inj front (by simp)
  have header : [rxByte u 0, rxByte u 1] = [a, f] := header
  obtain ⟨h0, h1⟩ := List.cons.inj header
  exact ⟨h0, (List.cons.inj h1).1, middle, (List.cons.inj crc).1⟩

/-- A frame received as it was built has a matching CRC: its residue is 0. -/
theorem crcMatches_of_frameBytes {u : State} {a f : Byte} {payload : List Byte}
    (hn : 2 ≤ u.rxlen.toNat) (h : rxBytes u 0 u.rxlen.toNat = frameBytes a f payload) : ReceivedCrcMatches u :=
  (crcMatches_iff hn).2 (h ▸ crc16_append_own_crc ([a, f] ++ payload))

/-- The third byte of a frame: the payload's first, or the CRC's low byte where there is no payload. -/
theorem rxByte_two_of_frameBytes {s u : State} {a f : Byte} {p : Nat}
    (hpay : rxBytes u 2 p = txBytes s 2 p) (hcrc : rxByte u (2 + p) = lo8 (crc16 ([a, f] ++ txBytes s 2 p))) :
    rxByte u 2 = if p = 0 then lo8 (crc16 [a, f]) else txByte s 2 := by
  cases p with
  | zero => exact hcrc
  | succ n =>
    have head := congrArg (fun bytes => bytes[0]?) hpay
    simpa using head

end Sys2Proof.Machine

namespace Sys2Proof.Proofs

open Sys2Proof.Machine Sys2Proof.Safety

/-- Settles O16: with a valid address an encoder ends with OK or with LengthError. -/
theorem encoderAddressCheck : Obligations.EncoderAddressCheck := by
  intro a b s i hi
  refine ⟨fun ha => exec_encoder_invalidAddress ha i hi, fun ha => ?_⟩
  simp only [List.mem_cons, List.not_mem_nil, or_false] at hi
  rcases hi with rfl | rfl | rfl | rfl
  · by_cases hp : PayloadAllowed b (argB s).toNat (txByte s 4 ++ txByte s 5).toNat
    · exact ⟨_, exec_encRaw_allowed ha hp, by simp⟩
    · exact ⟨_, exec_encRaw_refused ha hp, by simp⟩
  · exact ⟨_, exec_encRhr_valid ha, by simp⟩
  · by_cases hc : 1 ≤ (argB s).toNat ∧ (argB s).toNat ≤ 123
    · exact ⟨_, exec_encWmr_allowed ha hc, by simp⟩
    · exact ⟨_, exec_encWmr_refused ha (by omega), by simp⟩
  · exact ⟨_, exec_encUnl_valid ha, by simp⟩

/-- Settles O17: each encoder's answer on either side of its limit. -/
theorem encoderLengthLimits : Obligations.EncoderLengthLimits := by
  intro a f s ha p refused
  refine ⟨exec_encRaw_refused ha, fun hp => ⟨_, exec_encRaw_allowed ha hp, rfl, ofNat_frameLength hp.1⟩,
    exec_encWmr_refused ha, fun hc => ⟨_, exec_encWmr_allowed ha hc, rfl, ?_⟩,
    ⟨_, exec_encRhr_valid ha, rfl⟩, ⟨_, exec_encUnl_valid ha, rfl⟩⟩
  have hl : (wmrPayload s).length = 5 + 2 * p := wmrPayload_length s
  exact (ofNat_frameLength (p := (wmrPayload s).length) (by omega)).trans (by omega)

/-- Settles O18: what `emit` leaves in TXBUF, and that it writes nothing else. -/
theorem encRawBuildsFrame : Obligations.EncRawBuildsFrame := by
  intro a f s p ha hp
  refine ⟨_, exec_encRaw_allowed ha hp, txBytes_emitMem a f p s, ofNat_frameLength hp.1, fun x h0 h1 h2 h3 => ?_, rfl⟩
  exact congrArg (Option.getD · _) (get_emitMem_other a f p s x h0 h1 h2 h3)

/-- Settles O22: DEC's answer in each of the four cases, its completion written out. -/
theorem decodeResult : Obligations.DecodeResult :=
  fun _ _ _ => ⟨exec_dec_tooShort, exec_dec_crcMismatch, exec_dec_exception, exec_dec_data⟩

/-- Settles O24: the frame `emit` built has residue 0, so DEC reads its header, and the payload stands behind it. -/
theorem encodeDecodeInverse : Obligations.EncodeDecodeInverse := by
  intro a f x y s t u p ha hp ht hlen hbytes
  rw [exec_encRaw_allowed ha hp] at ht
  cases ht
  have hmax : p ≤ 252 := hp.1
  have hn : u.rxlen.toNat = p + 4 := hlen ▸ ofNat_frameLength hmax
  have hframe : rxBytes u 0 (p + 4) = frameBytes a f (txBytes s 2 p) := by
    rw [← txBytes_emitMem, ← hn, hlen]
    exact hbytes
  have hv : ReceivedCrcMatches u := crcMatches_of_frameBytes (by omega) (hn ▸ hframe)
  obtain ⟨h0, h1, hpay, hcrc⟩ := rxBytes_eq_frameBytes (txBytes_length s 2 p) hframe
  have hpl : (BitVec.ofNat 9 (u.rxlen.toNat - 4)).toNat = p := by
    rw [hn, Nat.add_sub_cancel]
    exact Nat.mod_eq_of_lt (by omega)
  cases hf : f.getLsbD 7 with
  | true =>
    exact ⟨_, exec_dec_exception (by omega) hv (h1 ▸ hf), rfl, h0, h1, hpl, hpay, by simp,
      fun _ => ⟨rfl, rxByte_two_of_frameBytes hpay hcrc⟩⟩
  | false => exact ⟨_, exec_dec_data (by omega) hv (h1 ▸ hf), rfl, h0, h1, hpl, hpay, fun _ => ⟨rfl, rfl⟩, by simp⟩

/-- Settles O25: the residue of the frame that decoded is 0, and changing one byte changes it (R93). -/
theorem corruptedFrameIsRejected : Obligations.CorruptedFrameIsRejected := by
  intro x y s s' t j h hc hlen hj hne hsame
  obtain ⟨hn, hv⟩ := crcMatches_of_exec_dec_ok h hc
  have hres : crc16 (rxBytes s 0 s.rxlen.toNat) = 0 := (crcMatches_iff (by omega)).1 hv
  have hv' : ¬ReceivedCrcMatches s' := by
    rw [crcMatches_iff (by rw [hlen]; omega), hlen, rxBytes_eq_set hsame, ← hres]
    exact crcFold_set_ne _ _ _ j (by simpa using hj) (by simpa [hj] using hne.symm)
  exact ⟨_, exec_dec_crcMismatch (hlen ▸ hn) hv', rfl, rfl, rfl⟩

end Sys2Proof.Proofs
end
section
/-! SUPPORT. What OPEN, CLOSE, XCHG and SEND answer (R119 to R122), and the bits of a character (R109). -/

namespace Sys2Proof.Machine

open Sys2Proof.Safety

/-! ### The commands -/

/-- OPEN on an open port changes nothing (R119). -/
theorem exec_openPort_open {s : State} (a b : Byte) (ho : s.opened = true) :
    exec (.openPort a b) s = .next (complete .ok s) := by
  simp [exec, execOpenPort, ho, finish]

/-- OPEN without a transceiver (R119). -/
theorem exec_openPort_absent {s : State} (a b : Byte) (ho : s.opened = false) (hp : s.phyOk = false) :
    exec (.openPort a b) s = .next (complete .connectFailed s) := by
  simp [exec, execOpenPort, ho, hp, finish]

/-- OPEN on a closed port with a transceiver (R119). -/
theorem exec_openPort_closed {s : State} (a b : Byte) (ho : s.opened = false) (hp : s.phyOk = true) :
    exec (.openPort a b) s = .next (complete .ok { s with opened := true, idle := 0 }) := by
  simp [exec, execOpenPort, ho, hp, finish]

/-- CLOSE (R120). -/
theorem exec_closePort (a b : Byte) (s : State) :
    exec (.closePort a b) s = .next (complete .ok (cutReception { s with opened := false })) := rfl

/-- With the port closed no character on the line is heard, so there is nothing to cut. -/
theorem MachineInv.cutReception_closed {s : State} (h : MachineInv s) (ho : s.opened = false) :
    cutReception s = s := by
  have hsame : s.lineChar.map (fun c => { c with heard := false }) = s.lineChar := by
    cases hc : s.lineChar with
    | none => rfl
    | some c =>
      have hh : c.heard = false := by simpa [rxEnabled, reN, ho] using (h.onRxd c hc).2
      simp [← hh]
  unfold cutReception
  rw [hsame]

/-- TXLEN outside 1 to 256 (R121, R122). -/
theorem txlenInvalid_iff {s : State} : txlenInvalid s = true ↔ s.txlen.toNat < 1 ∨ s.txlen.toNat > 256 := by
  simp [txlenInvalid]

/-- XCHG and SEND on a closed port. -/
theorem exec_exchange_closed {s : State} (a b : Byte) (ho : s.opened = false) :
    ∀ i ∈ [Instr.xchg a b, Instr.send a b], exec i s = .next (complete .notOpen s) := by
  simp [exec, execXchg, execSend, ho, finish]

/-- XCHG and SEND with no legal TXLEN. -/
theorem exec_exchange_length {s : State} (a b : Byte) (ho : s.opened = true) (hl : txlenInvalid s = true) :
    ∀ i ∈ [Instr.xchg a b, Instr.send a b], exec i s = .next (complete .lengthError s) := by
  simp [exec, execXchg, execSend, ho, hl, finish]

/-- XCHG starts its wait for silence (R121). -/
theorem exec_xchg_starts {s : State} (a b : Byte) (ho : s.opened = true) (hl : txlenInvalid s = false) :
    exec (.xchg a b) s = .next (startExchange { s with ovf := false }) := by
  simp [exec, execXchg, ho, hl]

/-- SEND starts its wait for silence (R122). -/
theorem exec_send_starts {s : State} (a b : Byte) (ho : s.opened = true) (hl : txlenInvalid s = false) :
    exec (.send a b) s = .next (startExchange s) := by
  simp [exec, execSend, ho, hl]

/-- A legal TXLEN. -/
theorem txlenInvalid_eq_false {s : State} (h1 : 1 ≤ s.txlen.toNat) (h2 : s.txlen.toNat ≤ 256) :
    txlenInvalid s = false := by
  rw [← Bool.not_eq_true, txlenInvalid_iff]
  omega

/-! ### The bits of a character -/

/-- The parity of how many of `l` satisfy `p` is the exclusive or over `l`. -/
theorem countP_add_xor_even (p : Nat → Bool) (l : List Nat) :
    (l.countP p + ((l.map p).foldr xor false).toNat) % 2 = 0 := by
  induction l with
  | nil => rfl
  | cons x xs ih =>
    rw [List.countP_cons, List.map_cons, List.foldr_cons]
    cases p x <;> cases hx : (xs.map p).foldr xor false <;> simp [hx] at ih ⊢ <;> omega

/-- Even parity is the exclusive or of the data bits. -/
theorem evenParity_eq_foldr (d : Byte) :
    evenParity d = ((List.range 8).map (fun j => d.getLsbD j)).foldr xor false := by
  simp [evenParity, List.range_succ]

/-- Which bit of a character is which (R109). -/
theorem characterBits_getLsbD (d : Byte) (p q : Bool) (i : Nat) :
    (characterBits d p q).getLsbD i =
      if i < 1 then (0#1).getLsbD i
      else if i - 1 < 8 then d.getLsbD (i - 1)
      else if i - 1 - 8 < 1 then (BitVec.ofBool p).getLsbD (i - 1 - 8)
      else (BitVec.ofBool q).getLsbD (i - 1 - 8 - 1) := by
  simp only [characterBits, BitVec.getLsbD_append]

/-- The bit on the line `r` ticks into bit `j`. -/
theorem bitAt_eq (bits : BitVec 11) (j : Nat) {r : Nat} (hr : r < 5) : bitAt bits (5 * j + r) = bits.getLsbD j := by
  have hj : (5 * j + r) / 5 = j := by omega
  simp [bitAt, hj]

end Sys2Proof.Machine

namespace Sys2Proof.Proofs

open Sys2Proof.Machine Sys2Proof.Safety

/-- Settles O26: OPEN's three answers, their completions written out. -/
theorem openResult : Obligations.OpenResult :=
  fun a b _ => ⟨exec_openPort_open a b, exec_openPort_absent a b,
    fun ho hp => ⟨_, exec_openPort_closed a b ho hp, rfl, rfl⟩⟩

/-- Settles O27: CLOSE's answer, and that on a closed port it writes what was there. -/
theorem closeResult : Obligations.CloseResult := by
  refine fun a b s => ⟨⟨_, exec_closePort a b s, rfl, rfl, rfl⟩, fun h ho => ?_⟩
  have hclosed : ({ s with opened := false } : State) = s := by rw [← ho]
  rw [exec_closePort, hclosed, MachineInv.cutReception_closed h ho]
  rfl

/-- Settles O28: the two checks in their order, and the start. -/
theorem exchangeStart : Obligations.ExchangeStart :=
  fun a b _ => ⟨exec_exchange_closed a b, fun ho hl => exec_exchange_length a b ho (txlenInvalid_iff.2 hl),
    fun ho h1 h2 => ⟨exec_xchg_starts a b ho (txlenInvalid_eq_false h1 h2),
      exec_send_starts a b ho (txlenInvalid_eq_false h1 h2)⟩⟩

/-- Settles O30: each bit's place in the character, and the tick that shows it. -/
theorem characterFormat : Obligations.CharacterFormat := by
  refine ⟨fun d p q => ⟨?_, fun j hj => ?_, ?_, ?_⟩, fun d => ?_, fun s x hx j r hr he => ?_, fun s hx => ?_⟩
  · rw [characterBits_getLsbD]
    rfl
  · rw [characterBits_getLsbD, if_neg (by omega), if_pos (by omega), Nat.add_sub_cancel_left]
  · rw [characterBits_getLsbD]
    cases p <;> rfl
  · rw [characterBits_getLsbD]
    cases q <;> rfl
  · rw [evenParity_eq_foldr]
    exact countP_add_xor_even _ _
  · simp only [txd, hx, he]
    exact bitAt_eq x.bits j hr
  · simp [txd, hx]

end Sys2Proof.Proofs
end
section
/-! SUPPORT. What a step does to the character on `rxd` (R109, R113). -/

namespace Sys2Proof.Machine

open Sys2Proof.Safety

/-- How a step changes the line, by the move that does it. -/
inductive LineStep (s : State) : State → Prop where
  /-- The character on the line stays as it is. -/
  | same {t : State} (h : t.lineChar = s.lineChar) : LineStep s t
  /-- The receiver stops: a character on the line is no longer heard. -/
  | cut {t : State} (h : t.lineChar = (cutReception s).lineChar) (hre : reN t = true) : LineStep s t
  /-- A character begins. -/
  | begins {t : State} (h : s.lineChar = none) : LineStep s t
  /-- Time passes out of reset. -/
  | time (n : Nat) (l : List Input) : LineStep s (advance n { s with inputs := l })
  /-- Time passes in reset. -/
  | timeInReset (n : Nat) (l : List Input) (hr : s.rstN = false) :
      LineStep s (advanceRx n (cutReception { s with inputs := l }))

/-- Of all commands only CLOSE touches the line. -/
theorem Ran.lineStep {i : Instr} {s t : State} (h : Ran i s t) : LineStep s t := by
  cases h with
  | closes a b hi => exact .cut rfl rfl
  | nothing | crc | encoder | decoder | opens | starts => exact .same rfl

theorem engineMove_lineStep {s t : State} (h : engineMove s = .next t) : LineStep s t := by
  rcases engineMove_cases h with ⟨-, rfl⟩ | ⟨-, i, -, he⟩ | ⟨-, -, rfl⟩
  · exact .same rfl
  · exact (exec_ran he).lineStep
  · exact .same rfl

/-- Of the timed transitions only the start of phase TX touches the line. -/
theorem transitionNow_lineStep {s t : State} (h : transitionNow s = some t) : LineStep s t := by
  rcases transitionNow_cases h with ⟨-, -, rfl⟩ | ⟨-, -, rfl⟩ | ⟨-, -, rfl⟩
  · exact .cut rfl (by simp [reN, beginTx])
  · exact .same rfl
  · exact .same rfl

theorem startChar_lineStep (d : Byte) (p q : Bool) (s : State) : LineStep s (startChar d p q s) := by
  cases hc : s.lineChar with
  | none => exact .begins hc
  | some c => exact .same (by simp [startChar, hc])

theorem hostRead_lineStep (p : BitVec 12) (s : State) : LineStep s (hostRead p s) := by
  unfold hostRead
  split <;> exact .same rfl

theorem hostWrite_lineStep (p : BitVec 12) (v : Word) (s : State) : LineStep s (hostWrite p v s) := by
  refine .same ?_
  cases hb : s.busy <;> cases hp : hostRegAt p
  all_goals simp [hostWrite, hp, unlessBusy, hb]

/-- Reset, at either level of `rst_n`. -/
theorem resetBlock_lineStep (s : State) (b : Bool) : LineStep s { resetBlock s with rstN := b } :=
  .cut rfl rfl

/-- What is still to come does not matter to the line. -/
theorem LineStep.of_inputs {s t : State} {l : List Input} (h : LineStep { s with inputs := l } t) : LineStep s t := by
  cases h with
  | same h => exact .same h
  | cut h hre => exact .cut h hre
  | begins h => exact .begins h
  | time n l => exact .time n l
  | timeInReset n l hr => exact .timeInReset n l hr

theorem applyInput_lineStep {i : Input} {s t : State} (h : applyInput i s = .next t) : LineStep s t := by
  cases i with
  | write p v => cases h; exact hostWrite_lineStep p v s
  | read p => cases h; exact hostRead_lineStep p s
  | engine => exact engineMove_lineStep h
  | wait n => cases h; exact .time _ _
  | charStart d p q => cases h; exact startChar_lineStep d p q s
  | rst level =>
    cases level with
    | true => cases h; exact .same rfl
    | false => cases h; exact resetBlock_lineStep s false
  | phy level => cases h; exact .same rfl

theorem applyInputInReset_lineStep (i : Input) {s : State} (hr : s.rstN = false) :
    LineStep s (applyInputInReset i s) := by
  cases i with
  | write | read | engine | phy => exact .same rfl
  | wait n => exact .timeInReset n s.inputs hr
  | charStart d p q => exact startChar_lineStep d p q s
  | rst level =>
    cases level with
    | true => exact resetBlock_lineStep s true
    | false => exact .same rfl

/-- Every step is one of these moves. -/
theorem step_lineStep {s t : State} (h : step s = .next t) : LineStep s t := by
  rcases step_cases h with ⟨-, hn⟩ | ⟨-, -, -, hrest⟩ | ⟨i, rest, -, -, -, ha⟩ | ⟨-, -, rfl⟩ | ⟨i, rest, hr, -, rfl⟩
  · exact transitionNow_lineStep hn
  · rcases hrest with ⟨-, hm⟩ | ⟨-, -, rfl⟩ | ⟨-, -, rfl⟩
    · exact engineMove_lineStep hm
    · exact .same (by rw [refill_eq])
    · exact .time _ _
  · exact (applyInput_lineStep ha).of_inputs
  · exact .same (by rw [refill_eq])
  · exact (applyInputInReset_lineStep (s := { s with inputs := rest }) i hr).of_inputs

/-- The receiver leaves the line alone. -/
@[simp] theorem receiveChar_lineChar (d : Byte) (ok : Bool) (s : State) :
    (receiveChar d ok s).lineChar = s.lineChar := by
  unfold receiveChar; split <;> rfl

/-- Ticks on `rxd`: the character there goes on, or is gone. -/
theorem advanceRx_lineChar (n : Nat) (s : State) :
    (advanceRx n s).lineChar = (s.lineChar.map (fun c => { c with elapsed := c.elapsed + n })).filter
      (fun c => decide (c.elapsed < 55)) := by
  unfold advanceRx
  split
  · next hc => simp [hc]
  · next c hc =>
    split
    · next hlt => simp [hc, Option.filter, show c.elapsed + n < 55 from hlt]
    · next hge =>
      have hge : ¬c.elapsed + n < 55 := hge
      split <;> simp [hc, Option.filter, hge]

/-- The transmitter and the timers leave the line alone. -/
@[simp] theorem advance_lineChar (n : Nat) (s : State) : (advance n s).lineChar = (advanceRx n s).lineChar := by
  simp only [advance, advanceTx_lineChar, advanceRx_lineChar, advanceTimers_lineChar]

/-- A character that stays on the line while ticks pass has only grown older. -/
theorem eq_of_advanceRx_lineChar {n : Nat} {s : State} {c c' : LineChar} (hc : s.lineChar = some c)
    (hc' : (advanceRx n s).lineChar = some c') : c' = { c with elapsed := c.elapsed + n } := by
  rw [advanceRx_lineChar, hc] at hc'
  exact (Option.some.inj (Option.filter_eq_some_iff.1 hc').1).symm

/-- `c'` is `c` later: the same bits, no younger, and heard only if `c` was. -/
def Continues (c c' : LineChar) : Prop :=
  c'.data = c.data ∧ c'.parity = c.parity ∧ c'.stop = c.stop ∧ c.elapsed ≤ c'.elapsed ∧
    (c.heard = false → c'.heard = false)

/-- A character that stays on the line is the same one, and a heard one is cut only where the receiver stops. -/
theorem LineStep.continues {s t : State} (h : LineStep s t) {c c' : LineChar} (hc : s.lineChar = some c)
    (hc' : t.lineChar = some c') :
    Continues c c' ∧ (s.rstN = true → c.heard = true → c'.heard = true ∨ reN t = true) := by
  cases h with
  | same h =>
    obtain rfl : c = c' := Option.some.inj (hc ▸ h ▸ hc')
    exact ⟨⟨rfl, rfl, rfl, Nat.le_refl _, id⟩, fun _ => .inl⟩
  | cut h hre =>
    rw [h, cutReception_lineChar, hc] at hc'
    cases hc'
    exact ⟨⟨rfl, rfl, rfl, Nat.le_refl _, fun _ => rfl⟩, fun _ _ => .inr hre⟩
  | begins h => simp [h] at hc
  | time n l =>
    rw [advance_lineChar] at hc'
    obtain rfl := eq_of_advanceRx_lineChar (s := { s with inputs := l }) hc hc'
    exact ⟨⟨rfl, rfl, rfl, Nat.le_add_right _ _, id⟩, fun _ => .inl⟩
  | timeInReset n l hr =>
    obtain rfl := eq_of_advanceRx_lineChar (c := { c with heard := false }) (by simp [hc]) hc'
    exact ⟨⟨rfl, rfl, rfl, Nat.le_add_right _ _, fun _ => rfl⟩, fun h => by simp [hr] at h⟩

/-- A character that leaves the line out of reset does so as time passes. -/
theorem LineStep.time_of_gone {s t : State} (h : LineStep s t) (hr : s.rstN = true) {c : LineChar}
    (hc : s.lineChar = some c) (hn : t.lineChar = none) : ∃ n l, t = advance n { s with inputs := l } := by
  cases h with
  | same h => simp [h, hc] at hn
  | cut h => simp [h, hc] at hn
  | begins h => simp [h] at hc
  | time n l => exact ⟨n, l, rfl⟩
  | timeInReset n l hr' => simp [hr] at hr'

/-- Ticks with an unheard character on the line leave no trace of it in the buffers and flags. -/
theorem advance_of_unheard {s : State} {c : LineChar} (n : Nat) (hc : s.lineChar = some c) (hh : c.heard = false) :
    (advance n s).mem = s.mem ∧ (advance n s).rxlen = s.rxlen ∧ (advance n s).ovf = s.ovf ∧
      (advance n s).rxerr = s.rxerr ∧ (advance n s).late = s.late := by
  have hrx := advanceRx_of_no_reception (s := advanceTimers n s) (n := n)
    (fun d hd => .inr (by cases hc.symm.trans hd; exact hh))
  simp [advance, hrx]

/-- A character begins on a free line, out of reset (R113). -/
theorem step_charStart {s : State} {d : Byte} {p q : Bool} {rest : List Input}
    (h : HasTurn s (.charStart d p q) rest) (hc : s.lineChar = none) :
    step s = .next { s with
      lineChar := some { data := d, parity := p, stop := q, elapsed := 0, heard := s.opened && s.phase != .tx },
      inputs := rest } := by
  obtain ⟨hr, hn, hi⟩ := h
  rw [step_input hr hn hi]
  simp [applyInput, startChar, hc, hr, rxEnabled, reN]

end Sys2Proof.Machine

namespace Sys2Proof.Proofs

open Sys2Proof.Machine Sys2Proof.Safety

/-- Settles O33: the start of a character, and what each move does to one on the line. -/
theorem receiverHearsFromTheStart : Obligations.ReceiverHearsFromTheStart := by
  refine ⟨fun s d p q rest => step_charStart, fun s t c c' h hc hc' => ?_, fun s t c h hs _ hc hh hn => ?_⟩
  · obtain ⟨⟨hd, hp, hq, he, hu⟩, hheard⟩ := (step_lineStep h).continues hc hc'
    exact ⟨hd, hp, hq, he, hu, hheard⟩
  · obtain ⟨n, l, rfl⟩ := (step_lineStep h).time_of_gone hs hc hn
    exact advance_of_unheard (s := { s with inputs := l }) n hc hh

end Sys2Proof.Proofs
end
section
/-! SUPPORT. A wait that reaches the next event, and what a heard character's end does then (R113 to R116). -/

namespace Sys2Proof.Machine

open Sys2Proof.Safety

/-- A wait no shorter than the time to the next event stops there. -/
theorem step_wait_event {s : State} {n d : Nat} {rest : List Input} (h : HasTurn s (.wait n) rest)
    (he : nextEvent s = some d) (hd : d ≤ n) :
    step s = .next (advance d { s with inputs := remainingWait (n - d) rest }) := by
  obtain ⟨hr, hn, hi⟩ := h
  have hmin : min n ((nextEvent { s with inputs := rest }).getD n) = d := by
    have he' : nextEvent { s with inputs := rest } = some d := he
    rw [he', Option.getD_some, Nat.min_eq_right hd]
  rw [step_input hr hn hi]
  exact congrArg Host.Outcome.next (passTime_eq hmin)

/-- With nothing being sent, a character on the line ends before anything else happens, where no timeout comes
sooner. -/
theorem nextEvent_of_lineChar {s : State} {c : LineChar} (hx : s.txShift = none) (hc : s.lineChar = some c)
    (hto : NoLater (55 - c.elapsed) (timeoutDue s)) : nextEvent s = some (55 - c.elapsed) := by
  have hrx : rxDue s = some (55 - c.elapsed) := by simp [rxDue, hc]
  refine nextEvent_eq_some (fun x hx' => ?_) (fun x hx' => ?_) (fun x hx' => ?_) hto (.inl hrx)
  · cases hrx.symm.trans hx'
    exact Nat.le_refl _
  · simp [txDue, hx] at hx'
  · obtain ⟨-, hl, -, -⟩ := silenceDue_eq_some.1 hx'
    simp [hc] at hl

/-- With nothing being sent, ticks pass for the timers and on `rxd`. -/
theorem advance_of_txShift_none (d : Nat) {s : State} (hx : s.txShift = none) :
    advance d s = advanceRx d (advanceTimers d s) := by
  simp [advance, advanceTx, hx]

/-- A heard character ends with the receiver enabled and nothing being sent: the engine gets it. -/
theorem advance_receives {s : State} {c : LineChar} {d : Nat} (hx : s.txShift = none) (hc : s.lineChar = some c)
    (hh : c.heard = true) (he : rxEnabled s = true) (hd : 55 ≤ c.elapsed + d) :
    advance d s = receiveChar c.data (charOk c) { advanceTimers d s with lineChar := none } := by
  have he' : rxEnabled (advanceTimers d s) = true := he
  have hends : ¬c.elapsed + d < 55 := by omega
  rw [advance_of_txShift_none d hx]
  simp [advanceRx, hc, hh, he', hends]

/-- `d` ticks have passed on an open port, the character on the line has ended, and `rest` is still to come. -/
def charEnded (d : Nat) (rest : List Input) (s : State) : State :=
  { s with resp := s.resp + d, idle := s.idle + d, lineChar := none, inputs := rest }

/-- A wait to the end of a heard character: the step in which the engine gets it. -/
theorem step_wait_receives {s : State} {c : LineChar} {n : Nat} {rest : List Input}
    (h : HasTurn s (.wait n) rest) (hn : 55 - c.elapsed ≤ n) (hx : s.txShift = none) (hc : s.lineChar = some c)
    (hh : c.heard = true) (hlt : c.elapsed < 55) (ho : s.opened = true) (hp : s.phase ≠ .tx)
    (hto : NoLater (55 - c.elapsed) (timeoutDue s)) :
    step s = .next (receiveChar c.data (charOk c) (charEnded (55 - c.elapsed)
      (if n = 55 - c.elapsed then rest else .wait (n - (55 - c.elapsed)) :: rest) s)) := by
  have he : rxEnabled s = true := by simp [rxEnabled, reN, ho, hp]
  have hrec := advance_receives (s := { s with inputs := remainingWait (n - (55 - c.elapsed)) rest })
    (d := 55 - c.elapsed) hx hc hh he (by omega)
  rw [step_wait_event h (nextEvent_of_lineChar hx hc hto) hn, hrec, remainingWait_sub hn]
  simp only [advanceTimers, charEnded, ho, if_true, eq_comm (a := n)]

/-- With room in RXBUF the character goes to RXBUF[RXLEN], and no other byte changes (R114). -/
theorem storeChar_stores {s : State} (d : Byte) (ok : Bool) (hf : s.rxlen.toNat < 256) :
    rxByte (storeChar d ok s) s.rxlen.toNat = d ∧ (storeChar d ok s).rxlen.toNat = s.rxlen.toNat + 1 ∧
      (storeChar d ok s).ovf = s.ovf ∧
      ∀ a, a ≠ rxOffset s.rxlen.toNat → byteAt (storeChar d ok s) a = byteAt s a := by
  have hfits : rxFits s = true := by simpa [rxFits] using hf
  refine ⟨by simp [rxByte, byteAt, hfits], ?_, by simp [hfits], fun a ha => by simp [byteAt, hfits, ha]⟩
  rw [storeChar_rxlen_toNat, if_pos hf]

/-- With RXBUF full nothing is written but `ovf` (R114). -/
theorem storeChar_drops {s : State} (d : Byte) (ok : Bool) (hf : 256 ≤ s.rxlen.toNat) :
    (storeChar d ok s).mem = s.mem ∧ (storeChar d ok s).rxlen = s.rxlen ∧ (storeChar d ok s).ovf = true := by
  have hfits : rxFits s = false := by simpa [rxFits] using hf
  simp [hfits]

/-- The engine stores a character in RX_WAIT and RX_ACTIVE (R114). -/
theorem receiveChar_receiving {s : State} (hp : s.phase = .rxWait ∨ s.phase = .rxActive) (d : Byte) (ok : Bool) :
    receiveChar d ok s = storeChar d ok s := by
  unfold receiveChar
  rcases hp with hp | hp <;> rw [hp]

/-- The engine discards a character in IDLE, EXEC and WAIT_IDLE (R116). -/
theorem receiveChar_late {s : State} (hp : s.phase = .idle ∨ s.phase = .exec ∨ s.phase = .waitIdle) (d : Byte)
    (ok : Bool) : receiveChar d ok s = discardChar s := by
  unfold receiveChar
  rcases hp with hp | hp | hp <;> rw [hp]

end Sys2Proof.Machine

namespace Sys2Proof.Proofs

open Sys2Proof.Machine Sys2Proof.Safety

/-- Settles O34: the wait stops at the character's end, no later than the timeout, and the character is stored. -/
theorem receivedCharacterIsStored : Obligations.ReceivedCharacterIsStored := by
  intro s c n rest ht hn hp ho hx hc hh hlt hto
  have hne : s.phase ≠ .tx := by rcases hp with hp | hp <;> simp [hp]
  have hdue : NoLater (55 - c.elapsed) (timeoutDue s) := fun x hx' => by
    obtain ⟨-, rfl⟩ := timeoutDue_eq_some.1 hx'
    omega
  rw [step_wait_receives ht hn hx hc hh hlt ho hne hdue, receiveChar_receiving (s := charEnded _ _ s) hp]
  exact ⟨_, rfl, storeChar_stores (s := charEnded _ _ s) _ _, storeChar_drops (s := charEnded _ _ s) _ _, rfl⟩

/-- Settles O35: these phases await no timeout, so the wait stops at the character's end, and it is discarded. -/
theorem lateCharacterIsDiscarded : Obligations.LateCharacterIsDiscarded := by
  intro s c n rest ht hn hp ho hx hc hh hlt
  have hne : s.phase ≠ .tx := by rcases hp with hp | hp | hp <;> simp [hp]
  have hdue : NoLater (55 - c.elapsed) (timeoutDue s) := fun x hx' => by
    obtain ⟨hr, -⟩ := timeoutDue_eq_some.1 hx'
    rcases hp with hp | hp | hp <;> simp [hp] at hr
  rw [step_wait_receives ht hn hx hc hh hlt ho hne hdue, receiveChar_late (s := charEnded _ _ s) hp]
  rfl

end Sys2Proof.Proofs
end
section
/-! SUPPORT. A command on the line: what a step can do while no timed transition is due (R111, R112, R117, R118). -/

namespace Sys2Proof.Machine

open Sys2Proof.Safety

/-! ### The step -/

/-- `t` is `s` but for what host, line and platform can change while a command is on the line: IE, the flags of STATUS,
the line, the pins, and the model's own fields. -/
abbrev KeepsCommand (s t : State) : Prop :=
  t = { s with
    ie := t.ie, done := t.done, wbusy := t.wbusy, rxerr := t.rxerr, late := t.late, lineChar := t.lineChar,
    phyOk := t.phyOk, prdata := t.prdata, draws := t.draws, inputs := t.inputs, later := t.later }

/-- What is still to come does not matter to a command on the line. -/
theorem KeepsCommand.of_inputs {s t : State} {l : List Input} (h : KeepsCommand { s with inputs := l } t) :
    KeepsCommand s t := h

theorem hostWrite_keepsCommand (p : BitVec 12) (v : Word) {s : State} (hb : s.busy = true) :
    KeepsCommand s (hostWrite p v s) := by
  by_cases ho : isOperand (hostRegAt p) = true
  · rw [hostWrite_busy v hb ho]
  · unfold hostWrite
    cases hp : hostRegAt p with
    | ctrl | status | rxlen | result | rplen | rxbuf | reserved => rfl
    | cmd | arg | crc | timeout | silence | req | txlen | wval | txbuf => simp [hp, isOperand] at ho

theorem hostRead_keepsCommand (p : BitVec 12) (s : State) : KeepsCommand s (hostRead p s) := by
  unfold hostRead
  split <;> rfl

theorem startChar_keepsCommand (d : Byte) (p q : Bool) (s : State) : KeepsCommand s (startChar d p q s) := by
  unfold startChar
  split <;> rfl

theorem refill_keepsCommand (s : State) : KeepsCommand s (refill s) := by
  rw [refill_eq]

/-- Outside EXEC the engine has nothing to execute. -/
theorem engineMove_eq_self {s t : State} (hp : s.phase ≠ .exec) (h : engineMove s = .next t) : t = s := by
  rcases engineMove_cases h with ⟨-, rfl⟩ | ⟨he, -⟩ | ⟨he, -⟩
  · rfl
  · exact absurd he hp
  · exact absurd he hp

/-- A step that begins and ends out of reset, with a command on the line and no transition due: time passes, or the
command goes on as it was. -/
theorem step_onLine {s t : State} (h : step s = .next t) (ht : t.rstN = true) (hr : s.rstN = true)
    (hp : s.phase ≠ .exec) (hb : s.busy = true) (hn : transitionNow s = none) :
    KeepsCommand s t ∨ ∃ n l, t = passTime n { s with inputs := l } := by
  rcases step_cases h with ⟨-, hn'⟩ | ⟨-, -, -, hrest⟩ | ⟨i, rest, -, -, -, ha⟩ | ⟨hr', -⟩ | ⟨_, _, hr', -⟩
  · simp [hn] at hn'
  · rcases hrest with ⟨he, -⟩ | ⟨-, -, rfl⟩ | ⟨-, -, rfl⟩
    · exact absurd he hp
    · exact .inl (refill_keepsCommand s)
    · exact .inr ⟨_, s.inputs, rfl⟩
  · cases i with
    | write p v => cases ha; exact .inl (hostWrite_keepsCommand p v (s := { s with inputs := rest }) hb).of_inputs
    | read p => cases ha; exact .inl (hostRead_keepsCommand p { s with inputs := rest }).of_inputs
    | engine => exact .inl (by rw [engineMove_eq_self (s := { s with inputs := rest }) hp ha])
    | wait n => cases ha; exact .inr ⟨n, rest, rfl⟩
    | charStart d p q => cases ha; exact .inl (startChar_keepsCommand d p q { s with inputs := rest }).of_inputs
    | rst level =>
      cases level with
      | true => cases ha; exact .inl rfl
      | false => cases ha; cases ht
    | phy level => cases ha; exact .inl rfl
  · simp [hr] at hr'
  · simp [hr] at hr'

/-! ### Outside phase TX -/

/-- With nothing being sent, time passes for the receiver and the timers only. -/
theorem passTime_received (n : Nat) {s : State} (hx : s.txShift = none) :
    ∃ d l, Received (advanceTimers d { s with inputs := l }) (passTime n s) := by
  have hrec (d : Nat) (l : List Input) :
      Received (advanceTimers d { s with inputs := l }) (advance d { s with inputs := l }) := by
    rw [advance_of_txShift_none d (s := { s with inputs := l }) hx]
    exact advanceRx_received d _
  exact ⟨_, _, hrec _ _⟩

/-- Out of reset, with nothing being sent and no transition due, a command on the line stays in its phase, unless a
heard character is stored. -/
theorem step_waits {s t : State} (h : step s = .next t) (ht : t.rstN = true) (hr : s.rstN = true)
    (hp : s.phase ≠ .exec) (hb : s.busy = true) (hx : s.txShift = none) (hn : transitionNow s = none) :
    (t.phase = s.phase ∧ t.txShift = none) ∨
      ((s.phase = .rxWait ∨ s.phase = .rxActive) ∧ t.phase = .rxActive ∧
        ∃ c, s.lineChar = some c ∧ c.heard = true) := by
  rcases step_onLine h ht hr hp hb hn with hk | ⟨n, l, rfl⟩
  · rw [hk]
    exact .inl ⟨rfl, hx⟩
  · obtain ⟨d, l', hrec⟩ := passTime_received n (s := { s with inputs := l }) hx
    generalize passTime n { s with inputs := l } = u at hrec
    cases hrec with
    | nothing | discarded => exact .inl ⟨rfl, hx⟩
    | stored c hc hh hp' => exact .inr ⟨hp', rfl, c, hc, hh⟩

/-! ### The timed transitions -/

/-- The silence condition with nothing being sent (R110). -/
theorem silent_iff {s : State} (hx : s.txShift = none) :
    silent s = true ↔ s.lineChar = none ∧ s.silence.toNat * 5 ≤ s.idle := by
  rw [silent, Bool.and_eq_true, decide_eq_true_eq]
  simp [lineQuiet, hx]

/-- The timeout condition (R117). -/
theorem timedOut_iff {s : State} : timedOut s = true ↔ s.timeout.toNat * 48 ≤ s.resp :=
  decide_eq_true_iff

/-- WAIT_IDLE ends where the line is silent (R111). -/
theorem transitionNow_waitIdle {s : State} (hp : s.phase = .waitIdle) (hx : s.txShift = none) (hc : s.lineChar = none)
    (hi : s.silence.toNat * 5 ≤ s.idle) : transitionNow s = some (beginTx s) := by
  simp only [transitionNow, hp, if_pos ((silent_iff hx).2 ⟨hc, hi⟩)]

/-- WAIT_IDLE goes on while the line is not silent. -/
theorem transitionNow_waitIdle_none {s : State} (hp : s.phase = .waitIdle) (hx : s.txShift = none)
    (h : s.lineChar ≠ none ∨ s.idle < s.silence.toNat * 5) : transitionNow s = none := by
  have hs : ¬silent s = true := by
    rw [silent_iff hx]
    rintro ⟨hc, hi⟩
    rcases h with h | h
    · exact h hc
    · omega
  simp only [transitionNow, hp, if_neg hs]

/-- RX_WAIT ends at the timeout (R117). -/
theorem transitionNow_rxWait {s : State} (hp : s.phase = .rxWait) (hto : s.timeout.toNat * 48 ≤ s.resp) :
    transitionNow s = some (complete .timeout s) := by
  simp only [transitionNow, hp, if_pos (timedOut_iff.2 hto)]

/-- RX_WAIT goes on before it. -/
theorem transitionNow_rxWait_none {s : State} (hp : s.phase = .rxWait) (hto : s.resp < s.timeout.toNat * 48) :
    transitionNow s = none := by
  simp only [transitionNow, hp, if_neg (timedOut_iff (s := s).not.2 (by omega))]

/-- What ends a reception (R118). -/
theorem receptionEnds_iff {s : State} (hx : s.txShift = none) : (silent s || timedOut s) = true ↔
    (s.lineChar = none ∧ s.silence.toNat * 5 ≤ s.idle) ∨ s.timeout.toNat * 48 ≤ s.resp := by
  rw [Bool.or_eq_true, silent_iff hx, timedOut_iff]

/-- RX_ACTIVE ends at the silence or the timeout (R118). -/
theorem transitionNow_rxActive {s : State} (hp : s.phase = .rxActive) (hx : s.txShift = none)
    (h : (s.lineChar = none ∧ s.silence.toNat * 5 ≤ s.idle) ∨ s.timeout.toNat * 48 ≤ s.resp) :
    transitionNow s = some (complete (receptionCode s) s) := by
  simp only [transitionNow, hp, if_pos ((receptionEnds_iff hx).2 h)]

/-- RX_ACTIVE goes on before both. -/
theorem transitionNow_rxActive_none {s : State} (hp : s.phase = .rxActive) (hx : s.txShift = none)
    (h : ¬((s.lineChar = none ∧ s.silence.toNat * 5 ≤ s.idle) ∨ s.timeout.toNat * 48 ≤ s.resp)) :
    transitionNow s = none := by
  simp only [transitionNow, hp, if_neg ((receptionEnds_iff hx).not.2 h)]

/-- A command on the line is running. -/
theorem MachineInv.busy_of_phase {s : State} (h : MachineInv s) {p : Phase} (hp : s.phase = p) (hne : p ≠ .idle) :
    s.busy = true := h.busyIffPhase.2 (hp ▸ hne)

/-! ### Phase TX -/

/-- Where one of two times is given, the earlier is given too and no later. -/
theorem earlier_le {e f : Option Nat} {a : Nat} (h : e = some a ∨ f = some a) : ∃ d ≤ a, earlier e f = some d := by
  cases e with
  | none => exact ⟨a, Nat.le_refl a, h.resolve_left (by simp)⟩
  | some b =>
    cases f with
    | none => exact ⟨a, Nat.le_refl a, h.resolve_right (by simp)⟩
    | some c => exact ⟨min b c, by simp only [Option.some.injEq] at h; omega, rfl⟩

/-- The next event comes no later than the end of the character on `txd`. -/
theorem nextEvent_le_of_txShift {s : State} {x : TxShift} (hx : s.txShift = some x) :
    ∃ d ≤ 55 - x.elapsed, nextEvent s = some d := by
  have htx : txDue s = some (55 - x.elapsed) := by simp [txDue, hx]
  obtain ⟨a, ha, hea⟩ := earlier_le (f := earlier (silenceDue s) (timeoutDue s)) (.inl htx)
  obtain ⟨b, hb, heb⟩ := earlier_le (e := rxDue s) (.inr hea)
  exact ⟨b, by omega, heb⟩

/-- `s` after `d` ticks on the timers and on `rxd`, `l` being still to come; `idle` and the line are left open. -/
def rxTicked (d i : Nat) (lc : Option LineChar) (l : List Input) (s : State) : State :=
  { s with resp := s.resp + d, idle := i, lineChar := lc, inputs := l }

/-- With the receiver off, ticks pass on the timers and on `rxd`, and then on `txd`. -/
theorem advance_tx (d : Nat) (l : List Input) {s : State} (hp : s.phase = .tx) :
    ∃ i lc, advance d { s with inputs := l } = advanceTx d (rxTicked d i lc l s) := by
  have hrx := advanceRx_received d (advanceTimers d { s with inputs := l })
  unfold advance
  generalize advanceRx d (advanceTimers d { s with inputs := l }) = u at hrx
  cases hrx with
  | nothing lc => exact ⟨_, lc, rfl⟩
  | stored c hc hh hp' => simp [hp] at hp'
  | discarded c hc hh he => simp [rxEnabled, reN, hp] at he

/-- In phase TX time passes up to the end of the character on `txd` at most. -/
theorem passTime_tx (n : Nat) (l : List Input) {s : State} {x : TxShift} (hp : s.phase = .tx)
    (hx : s.txShift = some x) :
    ∃ d i lc l', d ≤ 55 - x.elapsed ∧ passTime n { s with inputs := l } = advanceTx d (rxTicked d i lc l' s) := by
  obtain ⟨e, he, hnext⟩ := nextEvent_le_of_txShift (s := { s with inputs := l }) hx
  have hpass := passTime_eq (s := { s with inputs := l }) (n := n) rfl
  rw [hnext, Option.getD_some] at hpass
  obtain ⟨i, lc, hadv⟩ := advance_tx (min n e) (remainingWait (n - min n e) l) hp
  exact ⟨min n e, i, lc, _, by omega, hpass.trans hadv⟩

/-- Another character is left to send (R112). -/
theorem endChar_next {s : State} (hk : s.k < s.txlen.toNat) : endChar s = loadChar { s with idle := 0 } := if_pos hk

/-- The last character has been sent (R112). -/
theorem endChar_last {s : State} (hk : ¬s.k < s.txlen.toNat) : endChar s = endTx { s with idle := 0 } := if_neg hk

/-- SEND completes at the end of phase TX (R122). -/
theorem endTx_send {s : State} (ho : s.op = some 0x33) : endTx s = complete .ok { s with txShift := none } := if_pos ho

/-- XCHG awaits its response from the end of phase TX on (R121). -/
theorem endTx_xchg {s : State} (ho : s.op ≠ some 0x33) :
    endTx s = { s with txShift := none, phase := .rxWait, resp := 0 } := if_neg ho

/-- The end of a character of SEND or XCHG: the next one, or the end of the phase. -/
theorem endChar_cases {s : State} (hk : s.k ≤ s.txlen.toNat) (ho : s.op = some 0x32 ∨ s.op = some 0x33) :
    (s.k < s.txlen.toNat ∧ endChar s = loadChar { s with idle := 0 }) ∨
    (s.k = s.txlen.toNat ∧ s.op = some 0x33 ∧ endChar s = complete .ok { s with idle := 0, txShift := none }) ∨
    (s.k = s.txlen.toNat ∧ s.op = some 0x32 ∧
      endChar s = { s with idle := 0, txShift := none, phase := .rxWait, resp := 0 }) := by
  by_cases hnext : s.k < s.txlen.toNat
  · exact .inl ⟨hnext, endChar_next hnext⟩
  · have hlast : s.k = s.txlen.toNat := by omega
    rcases ho with ho | ho
    · exact .inr (.inr ⟨hlast, ho, (endChar_last hnext).trans (endTx_xchg (s := { s with idle := 0 }) (by simp [ho]))⟩)
    · exact .inr (.inl ⟨hlast, ho, (endChar_last hnext).trans (endTx_send (s := { s with idle := 0 }) ho)⟩)

/-- Ticks within the character on `txd`. -/
theorem advanceTx_within {s : State} {x : TxShift} {d : Nat} (hx : s.txShift = some x) (hd : x.elapsed + d < 55) :
    advanceTx d s = { s with txShift := some { x with elapsed := x.elapsed + d } } := by
  simp [advanceTx, hx, hd]

/-- Ticks to the end of the character on `txd`. -/
theorem advanceTx_ends {s : State} {x : TxShift} {d : Nat} (hx : s.txShift = some x) (hd : ¬x.elapsed + d < 55) :
    advanceTx d s = endChar s := by
  simp [advanceTx, hx, hd]

end Sys2Proof.Machine

namespace Sys2Proof.Proofs

open Sys2Proof.Machine Sys2Proof.Safety

/-- Settles O36: the transition at the timeout, and until then a step leaves RX_WAIT only by storing a character. -/
theorem responseTimeout : Obligations.ResponseTimeout := by
  intro s h hr hp
  obtain ⟨hx, -⟩ := MachineInv.line_of_not_tx h (by simp [hp])
  obtain ⟨hlen, -⟩ := h.nothingReceived (by simp [hp, beforeReception])
  refine ⟨hlen, fun hto => step_transition hr (transitionNow_rxWait hp hto), fun hto t ht hrt => ?_⟩
  have hbusy := MachineInv.busy_of_phase h hp (by simp)
  rcases step_waits ht hrt hr (by simp [hp]) hbusy hx (transitionNow_rxWait_none hp hto) with ⟨hpt, -⟩ | ⟨-, hpt, hc⟩
  · exact .inl (hpt.trans hp)
  · exact .inr ⟨hpt, hc⟩

/-- Settles O37: the transition at the silence or the timeout, and until then storing a character leads to RX_ACTIVE
again. -/
theorem receptionEnd : Obligations.ReceptionEnd := by
  intro s h hr hp
  obtain ⟨hx, -⟩ := MachineInv.line_of_not_tx h (by simp [hp])
  refine ⟨fun hend => step_transition hr (transitionNow_rxActive hp hx hend), fun hend t ht hrt => ?_⟩
  have hbusy := MachineInv.busy_of_phase h hp (by simp)
  rcases step_waits ht hrt hr (by simp [hp]) hbusy hx (transitionNow_rxActive_none hp hx hend) with
    ⟨hpt, -⟩ | ⟨-, hpt, -⟩
  · exact hpt.trans hp
  · exact hpt

/-- Settles O32: a step lets the command be, or time passes up to the end of the character on `txd` at most. -/
theorem nothingStopsATransmission : Obligations.NothingStopsATransmission := by
  intro s t h hr hp ht hrt
  obtain ⟨x, hx⟩ := Option.isSome_iff_exists.1 (h.sending.1 hp)
  obtain ⟨-, hk, -, -⟩ := h.sent x hx
  obtain ⟨-, -, -, hop, -⟩ := h.lineCommand (by simp [hp, onLine])
  obtain ⟨hlen, -⟩ := h.nothingReceived (by simp [hp, beforeReception])
  have hbusy := MachineInv.busy_of_phase h hp (by simp)
  rcases step_onLine ht hrt hr (by simp [hp]) hbusy (transitionNow_tx hp) with hsame | ⟨n, l, rfl⟩
  · rw [hsame]
    exact ⟨rfl, rfl, x, hx, .inl ⟨hp, rfl, x, hx, rfl, Nat.le_refl _, rfl⟩⟩
  · obtain ⟨d, i, lc, l', hd, hpass⟩ := passTime_tx n l hp hx
    rw [hpass, advanceTx_txlen, advanceTx_mem]
    refine ⟨rfl, rfl, x, hx, ?_⟩
    by_cases hin : x.elapsed + d < 55
    · rw [advanceTx_within (s := rxTicked d i lc l' s) hx hin]
      exact .inl ⟨hp, rfl, _, rfl, rfl, Nat.le_add_right _ _, by simp only [rxTicked]; omega⟩
    · obtain rfl : d = 55 - x.elapsed := by omega
      rw [advanceTx_ends (s := rxTicked _ i lc l' s) hx hin]
      rcases endChar_cases (s := rxTicked (55 - x.elapsed) i lc l' s) hk hop with
        ⟨hnext, he⟩ | ⟨hlast, hsend, he⟩ | ⟨hlast, hxchg, he⟩
      · rw [he]
        exact .inr (.inl ⟨hp, hnext, rfl, rfl, rfl, rfl⟩)
      · rw [he]
        exact .inr (.inr ⟨hlast, rfl, rfl, .inl ⟨hsend, rfl, rfl, rfl⟩⟩)
      · rw [he]
        exact .inr (.inr ⟨hlast, rfl, rfl, .inr ⟨hxchg, rfl, rfl, hlen⟩⟩)

end Sys2Proof.Proofs
end
section
/-! SUPPORT. Runs of steps, and WAIT_IDLE on a line that is never silent (R111, R160). -/

namespace Sys2Proof.Machine

open Sys2Proof.Safety

/-! ### Runs of steps -/

/-- A run that goes on for `n` more steps. -/
theorem runSteps_add {m n : Nat} {s t : State} (h : runSteps m s = some t) : runSteps (m + n) s = runSteps n t := by
  induction m generalizing s with
  | zero =>
    cases h
    rw [Nat.zero_add]
  | succ m ih =>
    rw [Nat.add_right_comm]
    simp only [runSteps] at h ⊢
    split at h
    · exact ih h
    · cases h
    · cases h

/-- A run of one step. -/
theorem runSteps_one {s t : State} (h : step s = .next t) : runSteps 1 s = some t := by
  simp [runSteps, h]

/-- A run that goes on for one more step. -/
theorem runSteps_succ {n : Nat} {s t u : State} (h : runSteps n s = some t) (k : step t = .next u) :
    runSteps (n + 1) s = some u :=
  (runSteps_add h).trans (runSteps_one k)

/-- What a step can always be taken with, and keeps, holds after any number of steps. -/
theorem runSteps_of_kept {P : State → Prop} (hP : ∀ s, P s → ∃ t, step s = .next t ∧ P t) {s : State} (hs : P s)
    (n : Nat) : ∃ t, runSteps n s = some t ∧ P t := by
  induction n with
  | zero => exact ⟨s, rfl, hs⟩
  | succ n ih =>
    obtain ⟨t, hrun, ht⟩ := ih
    obtain ⟨u, hstep, hu⟩ := hP t ht
    exact ⟨u, runSteps_succ hrun hstep, hu⟩

/-! ### Quiet waits -/

/-- Ticks on a quiet line with the port open: the timers count. -/
theorem advance_quiet {s : State} (d : Nat) (ho : s.opened = true) (hc : s.lineChar = none) (hx : s.txShift = none) :
    advance d s = { s with resp := s.resp + d, idle := s.idle + d } := by
  rw [advance_of_no_end (by simp [hc]) (by simp [hx])]
  simp [ho, hc, hx]

/-- A wait on a quiet line, no longer than to the silence and the timeout that a phase may await. -/
theorem step_wait_quiet {s : State} {n : Nat} {rest : List Input} (h : HasTurn s (.wait n) rest)
    (ho : s.opened = true) (hc : s.lineChar = none) (hx : s.txShift = none)
    (hsi : s.idle + n ≤ s.silence.toNat * 5)
    (hto : s.phase = .rxWait ∨ s.phase = .rxActive → s.resp + n ≤ s.timeout.toNat * 48) :
    step s = .next { s with resp := s.resp + n, idle := s.idle + n, inputs := rest } := by
  have hcount := Proofs.timersCount s n n rest h (Nat.le_refl n) (by simp [hc]) (by simp [hx]) (fun _ _ _ => hsi) hto
    (.inl rfl)
  rw [hcount]
  simp [ho, hc, hx]

/-! ### WAIT_IDLE -/

section
variable (d : Byte) (p q : Bool) (gap : Nat)

/-- How far the line has come in a burst of one character, a gap, and the tick after the burst. -/
inductive InBurst (s : State) : Prop where
  /-- The burst is over. -/
  | done (hc : s.lineChar = none) (hi : s.idle < s.silence.toNat * 5) (hin : s.inputs = [])
  /-- The burst is still to come. -/
  | ahead (hc : s.lineChar = none) (hi : s.idle < s.silence.toNat * 5)
      (hin : s.inputs = [.charStart d p q, .wait 55, .wait gap, .wait 1])
  /-- The character has begun. -/
  | char (hc : s.lineChar = some { data := d, parity := p, stop := q, elapsed := 0, heard := true })
      (hin : s.inputs = [.wait 55, .wait gap, .wait 1])
  /-- The character has ended. -/
  | gap (hc : s.lineChar = none) (hi : s.idle = 0) (hin : s.inputs = [.wait gap, .wait 1])
  /-- The gap is over but for its last tick. -/
  | lastTick (hc : s.lineChar = none) (hi : s.idle = gap) (hin : s.inputs = [.wait 1])

/-- A command in WAIT_IDLE on a line that sends such bursts for ever, the gap shorter than SILENCE. -/
structure NeverSilent (s : State) : Prop where
  outOfReset : s.rstN = true
  waits : s.phase = .waitIdle
  runs : s.busy = true
  notDone : s.done = false
  isOpen : s.opened = true
  sendsNothing : s.txShift = none
  gapShort : gap + 1 < s.silence.toNat * 5
  endless : s.later = .again [.charStart d p q, .wait 55, .wait gap]
  place : InBurst d p q gap s

variable {d p q gap}

/-- On such a line no transition is due. -/
theorem NeverSilent.transitionNow_none {s : State} (h : NeverSilent d p q gap s) : transitionNow s = none := by
  refine transitionNow_waitIdle_none h.waits h.sendsNothing ?_
  have hshort := h.gapShort
  cases h.place with
  | done hc hi => exact .inr hi
  | ahead hc hi => exact .inr hi
  | char hc => exact .inl (by simp [hc])
  | gap hc hi => exact .inr (by omega)
  | lastTick hc hi => exact .inr (by omega)

/-- Such a line goes on for ever. -/
theorem NeverSilent.step_next {s : State} (h : NeverSilent d p q gap s) :
    ∃ t, step s = .next t ∧ NeverSilent d p q gap t := by
  have hn := h.transitionNow_none
  have hne : ¬(s.phase = .rxWait ∨ s.phase = .rxActive) := by simp [h.waits]
  have hturn {i : Input} {rest : List Input} (hin : s.inputs = i :: rest) : HasTurn s i rest :=
    ⟨h.outOfReset, hn, hin⟩
  have hshort := h.gapShort
  cases h.place with
  | done hc hi hin =>
    have hstep : step s = .next { s with inputs := [.charStart d p q, .wait 55, .wait gap, .wait 1] } := by
      rw [step_rest h.outOfReset hn hin]
      simp [restMove, h.waits, idleMove, refill, h.endless]
    exact ⟨_, hstep, { h with place := .ahead hc hi rfl }⟩
  | ahead hc hi hin =>
    refine ⟨_, step_charStart (hturn hin) hc, { h with place := .char ?_ rfl }⟩
    simp [h.isOpen, h.waits]
  | char hc hin =>
    exact ⟨_, Proofs.lateCharacterIsDiscarded s _ 55 _ (hturn hin) (by simp) (.inr (.inr h.waits)) h.isOpen
      h.sendsNothing hc rfl (by simp), { h with place := .gap rfl rfl rfl }⟩
  | gap hc hi hin =>
    refine ⟨_, step_wait_quiet (hturn hin) h.isOpen hc h.sendsNothing (by omega) (absurd · hne),
      { h with place := .lastTick hc ?_ rfl }⟩
    simp [hi]
  | lastTick hc hi hin =>
    refine ⟨_, step_wait_quiet (hturn hin) h.isOpen hc h.sendsNothing (by omega) (absurd · hne),
      { h with place := .done hc ?_ rfl }⟩
    simp only [hi]
    exact hshort

end

end Sys2Proof.Machine

namespace Sys2Proof.Proofs

open Sys2Proof.Machine Sys2Proof.Safety

/-- Settles O29: the transition on a silent line, no other move leaves WAIT_IDLE, and on an endless line each place in
the burst leads to the next. -/
theorem waitIdleHoldsUntilSilence : Obligations.WaitIdleHoldsUntilSilence := by
  intro s h hr hp
  obtain ⟨hx, -⟩ := MachineInv.line_of_not_tx h (by simp [hp])
  have hbusy := MachineInv.busy_of_phase h hp (by simp)
  refine ⟨fun hc hi => ?_, fun hi t ht hrt => ?_, fun d p q gap hc hi hgap hin hlater n => ?_⟩
  · refine ⟨_, step_transition hr (transitionNow_waitIdle hp hx hc hi), rfl, rfl, by simp [reN, beginTx], rfl, rfl, ?_⟩
    simp [beginTx, loadChar, cutReception, hc]
  · have hn := transitionNow_waitIdle_none hp hx hi
    rcases step_waits ht hrt hr (by simp [hp]) hbusy hx hn with ⟨hpt, hxt⟩ | ⟨hp', -⟩
    · exact ⟨hpt.trans hp, hxt⟩
    · simp [hp] at hp'
  · obtain ⟨hopen, -⟩ := h.lineCommand (by simp [hp, onLine])
    have hnever : NeverSilent d p q gap s :=
      ⟨hr, hp, hbusy, h.notDoneWhileBusy hbusy, hopen, hx, hgap, hlater, .done hc hi hin⟩
    obtain ⟨t, hrun, ht⟩ := runSteps_of_kept (fun _ => NeverSilent.step_next) hnever n
    exact ⟨t, hrun, ht.waits, ht.runs, ht.notDone, ht.sendsNothing⟩

end Sys2Proof.Proofs
end
section
/-! SUPPORT. A whole transmission (R112), and SEND and XCHG on a silent line (R121, R122, R124). -/

namespace Sys2Proof.Machine

open Sys2Proof.Safety

/-! ### Characters one after another -/

/-- The character TXBUF[j] as its start bit begins (R112). -/
def frameChar (s : State) (j : Nat) : TxShift :=
  { bits := characterBits (txByte s j) (evenParity (txByte s j)) true, elapsed := 0 }

/-- `s` where character `j` of the frame begins, 55 ticks a character after the first; `idle` is `i`, and `l` is still
to come. -/
def atChar (s : State) (j i : Nat) (l : List Input) : State :=
  { s with k := j + 1, txShift := some (frameChar s j), idle := i, resp := s.resp + 55 * j, inputs := l }

/-- `s` where phase TX has ended after its last character; `l` is still to come. -/
def afterFrame (s : State) (l : List Input) : State :=
  endTx { s with k := s.txlen.toNat, idle := 0, resp := s.resp + 55 * s.txlen.toNat, inputs := l }

/-- SEND has completed then (R122). -/
theorem afterFrame_send {s : State} (ho : s.op = some 0x33) (l : List Input) :
    afterFrame s l = complete .ok { s with
      txShift := none, k := s.txlen.toNat, idle := 0, resp := s.resp + 55 * s.txlen.toNat, inputs := l } :=
  if_pos ho

/-- XCHG awaits its response then (R121). -/
theorem afterFrame_xchg {s : State} (ho : s.op ≠ some 0x33) (l : List Input) :
    afterFrame s l = { s with
      txShift := none, phase := .rxWait, k := s.txlen.toNat, idle := 0, resp := 0, inputs := l } :=
  if_neg ho

/-- The first character begins. -/
theorem atChar_zero {s : State} (hk : s.k = 1) (hx : s.txShift = some (frameChar s 0)) :
    atChar s 0 s.idle s.inputs = s := by
  simp [atChar, ← hk, ← hx]

/-- On a quiet line the character on `txd` ends before anything else happens. -/
theorem nextEvent_of_txShift {s : State} {x : TxShift} (hp : s.phase = .tx) (hc : s.lineChar = none)
    (hx : s.txShift = some x) : nextEvent s = some (55 - x.elapsed) := by
  simp [nextEvent, rxDue, txDue, silenceDue, timeoutDue, hp, hc, hx, earlier]

/-- Ticks to the end of the character on `txd`, on a quiet line. -/
theorem advance_sends {s : State} {x : TxShift} {d : Nat} (hc : s.lineChar = none) (hx : s.txShift = some x)
    (hd : ¬x.elapsed + d < 55) : advance d s = endChar (advanceTimers d s) := by
  have hrx : advanceRx d (advanceTimers d s) = advanceTimers d s := by simp [advanceRx, hc]
  rw [advance, hrx]
  exact advanceTx_ends hx hd

section
variable {s : State} {j : Nat} (hc : s.lineChar = none)
include hc

/-- A character is followed by the next one. -/
theorem advance_atChar_next (hj : j + 1 < s.txlen.toNat) (i : Nat) (l : List Input) :
    advance 55 (atChar s j i l) = atChar s (j + 1) 0 l := by
  have hk : (advanceTimers 55 (atChar s j i l)).k < (advanceTimers 55 (atChar s j i l)).txlen.toNat := hj
  rw [advance_sends (s := atChar s j i l) hc rfl (by simp [frameChar]), endChar_next hk]
  simp only [atChar, loadChar, advanceTimers, Nat.mul_succ, Nat.add_assoc]
  rfl

/-- The last character is followed by the end of the phase. -/
theorem advance_atChar_last (hj : j + 1 = s.txlen.toNat) (i : Nat) (l : List Input) :
    advance 55 (atChar s j i l) = afterFrame s l := by
  have hk : ¬(advanceTimers 55 (atChar s j i l)).k < (advanceTimers 55 (atChar s j i l)).txlen.toNat := by
    simp [atChar, hj]
  rw [advance_sends (s := atChar s j i l) hc rfl (by simp [frameChar]), endChar_last hk]
  simp only [atChar, afterFrame, endTx, complete, advanceTimers, ← hj, Nat.mul_succ, Nat.add_assoc]

/-! Characters sent by steps of 55 ticks each, `l j` being what is still to come where character `j` begins. -/

variable {l : Nat → List Input} (h0 : s = atChar s 0 s.idle (l 0))
  (hstep : ∀ j i, j < s.txlen.toNat →
    step (atChar s j i (l j)) = .next (advance 55 (atChar s j i (l (j + 1)))))
include h0 hstep

/-- The start of each character is reached. -/
theorem runSteps_atChar (j : Nat) (hj : j < s.txlen.toNat) : ∃ i, runSteps j s = some (atChar s j i (l j)) := by
  induction j with
  | zero => exact ⟨s.idle, congrArg some h0⟩
  | succ j ih =>
    obtain ⟨i, hrun⟩ := ih (by omega)
    exact ⟨0, (runSteps_succ hrun (hstep j i (by omega))).trans (congrArg some (advance_atChar_next hc hj i _))⟩

/-- The end of the phase is reached. -/
theorem runSteps_frame (hn : 1 ≤ s.txlen.toNat) :
    runSteps s.txlen.toNat s = some (afterFrame s (l s.txlen.toNat)) := by
  obtain ⟨j, hj⟩ : ∃ j, j + 1 = s.txlen.toNat := ⟨s.txlen.toNat - 1, by omega⟩
  obtain ⟨i, hrun⟩ := runSteps_atChar hc h0 hstep j (by omega)
  have hlast := runSteps_succ hrun (hstep j i (by omega))
  rwa [advance_atChar_last hc hj, hj] at hlast

end

/-- What is left of a wait that is not over. -/
theorem remainingWait_of_ne_zero {n : Nat} (h : n ≠ 0) (rest : List Input) : remainingWait n rest = .wait n :: rest :=
  if_neg h

/-- A wait for as long as the frame, where character `j` begins: what is left of it, and `rest`. -/
def frameWait (s : State) (rest : List Input) (j : Nat) : List Input :=
  remainingWait (55 * (s.txlen.toNat - j)) rest

/-- Before the last character ends the wait is not over. -/
theorem frameWait_of_lt {s : State} {j : Nat} (hj : j < s.txlen.toNat) (rest : List Input) :
    frameWait s rest j = .wait (55 * (s.txlen.toNat - j)) :: rest :=
  remainingWait_of_ne_zero (by omega) rest

/-- It is over with the frame. -/
theorem frameWait_end (s : State) (rest : List Input) : frameWait s rest s.txlen.toNat = rest := by
  simp [frameWait, remainingWait]

/-- Such a wait stops at the end of character `j`. -/
theorem step_frameWait {s : State} {j : Nat} (hr : s.rstN = true) (hp : s.phase = .tx) (hc : s.lineChar = none)
    (hj : j < s.txlen.toNat) (i : Nat) (rest : List Input) :
    step (atChar s j i (frameWait s rest j)) = .next (advance 55 (atChar s j i (frameWait s rest (j + 1)))) := by
  have hturn : HasTurn (atChar s j i (frameWait s rest j)) (.wait (55 * (s.txlen.toNat - j))) rest :=
    ⟨hr, transitionNow_tx hp, frameWait_of_lt hj rest⟩
  have hleft : 55 * (s.txlen.toNat - j) - 55 = 55 * (s.txlen.toNat - (j + 1)) := by omega
  rw [step_wait_event (d := 55) hturn (nextEvent_of_txShift (s := atChar s j i _) hp hc rfl) (by omega), hleft]
  rfl

/-! ### A silent line and an idle host -/

/-- The port is open, the line is free, and neither host nor line does anything more. -/
structure QuietLine (s : State) : Prop where
  outOfReset : s.rstN = true
  isOpen : s.opened = true
  free : s.lineChar = none
  noInput : s.inputs = []
  noMore : s.later = .quiet

/-- Then a step passes the time to the next event. -/
theorem QuietLine.step_event {s : State} {d : Nat} (h : QuietLine s) (hp : s.phase ≠ .exec)
    (hn : transitionNow s = none) (he : nextEvent s = some d) : step s = .next (advance d s) := by
  have hrest : restMove s = .next (idleMove s) := by
    unfold restMove
    cases hph : s.phase with
    | exec => exact absurd hph hp
    | _ => rfl
  have hsame : ({ s with inputs := remainingWait (d - d) s.inputs } : State) = s := by
    simp [remainingWait]
  have hpass : passTime d s = advance d s :=
    (passTime_eq (by rw [he, Option.getD_some, Nat.min_self])).trans (congrArg (advance d) hsame)
  rw [step_rest h.outOfReset hn h.noInput, hrest]
  simp only [idleMove, h.noMore, he, Option.getD_some, hpass]

/-- A timed transition that is due, or is due at the next event, comes within two steps. -/
theorem QuietLine.runSteps_transition {s : State} (h : QuietLine s) (hx : s.txShift = none) (hp : s.phase ≠ .exec)
    {d : Nat} {f : State → State} (hnow : d = 0 → transitionNow s = some (f s))
    (hlater : d ≠ 0 → transitionNow s = none ∧ nextEvent s = some d ∧
      transitionNow { s with resp := s.resp + d, idle := s.idle + d } =
        some (f { s with resp := s.resp + d, idle := s.idle + d })) :
    ∃ m ≤ 2, ∃ i r, runSteps m s = some (f { s with idle := i, resp := r }) := by
  by_cases hd : d = 0
  · exact ⟨1, by omega, s.idle, s.resp, runSteps_one (step_transition h.outOfReset (hnow hd))⟩
  · obtain ⟨hn, he, hthen⟩ := hlater hd
    have hwait : step s = .next { s with resp := s.resp + d, idle := s.idle + d } := by
      rw [h.step_event hp hn he, advance_quiet d h.isOpen h.free hx]
    exact ⟨2, Nat.le_refl 2, _, _, runSteps_two hwait (step_transition h.outOfReset hthen)⟩

/-- WAIT_IDLE ends. -/
theorem QuietLine.runSteps_waitIdle {s : State} (h : QuietLine s) (hp : s.phase = .waitIdle)
    (hx : s.txShift = none) : ∃ m ≤ 2, ∃ i r, runSteps m s = some (beginTx { s with idle := i, resp := r }) := by
  refine h.runSteps_transition hx (by simp [hp]) (d := s.silence.toNat * 5 - s.idle)
    (fun hd => transitionNow_waitIdle hp hx h.free (by omega)) (fun hd => ⟨?_, ?_, ?_⟩)
  · exact transitionNow_waitIdle_none hp hx (.inr (by omega))
  · simp [nextEvent, rxDue, txDue, silenceDue, timeoutDue, lineQuiet, hp, h.free, hx, earlier]
  · exact transitionNow_waitIdle (by exact hp) hx h.free (by simp only; omega)

/-- RX_WAIT ends with Timeout. -/
theorem QuietLine.runSteps_rxWait {s : State} (h : QuietLine s) (hp : s.phase = .rxWait) (hx : s.txShift = none) :
    ∃ m ≤ 2, ∃ i r, runSteps m s = some (complete .timeout { s with idle := i, resp := r }) := by
  refine h.runSteps_transition hx (by simp [hp]) (d := s.timeout.toNat * 48 - s.resp)
    (fun hd => transitionNow_rxWait hp (by omega)) (fun hd => ⟨?_, ?_, ?_⟩)
  · exact transitionNow_rxWait_none hp (by omega)
  · simp [nextEvent, rxDue, txDue, silenceDue, timeoutDue, hp, h.free, hx, earlier]
  · exact transitionNow_rxWait (by exact hp) (by simp only; omega)

/-- A frame is sent: from the start of phase TX to its end. -/
theorem QuietLine.runSteps_frame {s : State} (h : QuietLine s) (hp : s.phase = .tx) (hk : s.k = 1)
    (hx : s.txShift = some (frameChar s 0)) (hn : 1 ≤ s.txlen.toNat) :
    runSteps s.txlen.toNat s = some (afterFrame s []) := by
  have h0 : s = atChar s 0 s.idle [] := h.noInput ▸ (atChar_zero hk hx).symm
  refine Machine.runSteps_frame (l := fun _ => []) h.free h0 (fun j i _ => ?_) hn
  have hj : QuietLine (atChar s j i []) := ⟨h.outOfReset, h.isOpen, h.free, rfl, h.noMore⟩
  exact hj.step_event (by simp [atChar, hp]) (transitionNow_tx hp)
    (nextEvent_of_txShift (s := atChar s j i []) hp h.free rfl)

/-- A frame is sent: from WAIT_IDLE to the end of phase TX. -/
theorem QuietLine.runSteps_transmission {s : State} (h : QuietLine s) (hp : s.phase = .waitIdle)
    (hx : s.txShift = none) (hn : 1 ≤ s.txlen.toNat) :
    ∃ m ≤ s.txlen.toNat + 2, ∃ r, runSteps m s = some (afterFrame { s with phase := .tx, resp := r } []) := by
  obtain ⟨m, hm, i, r, hbegin⟩ := h.runSteps_waitIdle hp hx
  have htx : QuietLine (beginTx { s with idle := i, resp := r }) :=
    ⟨h.outOfReset, h.isOpen, by simp [beginTx, h.free], h.noInput, h.noMore⟩
  have hframe := htx.runSteps_frame rfl rfl rfl hn
  refine ⟨m + s.txlen.toNat, by omega, r, (runSteps_add hbegin).trans (hframe.trans (congrArg some ?_))⟩
  simp [afterFrame, beginTx, loadChar, cutReception, endTx, complete, h.free]

/-- SEND completes. -/
theorem QuietLine.runSteps_send {s : State} (h : QuietLine s) (hp : s.phase = .waitIdle) (hx : s.txShift = none)
    (hn : 1 ≤ s.txlen.toNat) (ho : s.op = some 0x33) :
    ∃ m ≤ s.txlen.toNat + 2, ∃ r, runSteps m s = some (complete .ok { s with
      phase := .tx, txShift := none, k := s.txlen.toNat, idle := 0, resp := r, inputs := [] }) := by
  obtain ⟨m, hm, r, hrun⟩ := h.runSteps_transmission hp hx hn
  exact ⟨m, hm, _, hrun.trans (congrArg some (afterFrame_send (s := { s with phase := .tx, resp := r }) ho []))⟩

/-- XCHG ends with Timeout. -/
theorem QuietLine.runSteps_xchg {s : State} (h : QuietLine s) (hp : s.phase = .waitIdle) (hx : s.txShift = none)
    (hn : 1 ≤ s.txlen.toNat) (ho : s.op ≠ some 0x33) :
    ∃ m ≤ s.txlen.toNat + 4, ∃ i r, runSteps m s = some (complete .timeout { s with
      phase := .rxWait, txShift := none, k := s.txlen.toNat, idle := i, resp := r, inputs := [] }) := by
  obtain ⟨m, hm, r, hrun⟩ := h.runSteps_transmission hp hx hn
  rw [afterFrame_xchg (s := { s with phase := .tx, resp := r }) ho] at hrun
  have hwait : QuietLine { s with
      phase := .rxWait, txShift := none, k := s.txlen.toNat, idle := 0, resp := 0, inputs := [] } :=
    ⟨h.outOfReset, h.isOpen, h.free, rfl, h.noMore⟩
  obtain ⟨m', hm', i, r', hend⟩ := hwait.runSteps_rxWait rfl rfl
  exact ⟨m + m', by omega, i, r', (runSteps_add hrun).trans hend⟩

/-- In EXEC `op` is the opcode of the decoded command. -/
theorem MachineInv.op_of_decode {s : State} {i : Instr} (h : MachineInv s) (hp : s.phase = .exec)
    (hd : decode s.cmd = .ok i) : s.op = some (opcodeOf i) := by
  rw [h.opOfCmd, if_pos (MachineInv.busy_of_phase h hp (by simp)), fieldOp_of_decode hd]

end Sys2Proof.Machine

namespace Sys2Proof.Proofs

open Sys2Proof.Machine Sys2Proof.Safety

/-- Settles O31: the wait passes 55 ticks a step, each to the start of the next character, the last to the end of the
phase. -/
theorem transmissionIsBackToBack : Obligations.TransmissionIsBackToBack := by
  intro s rest n hr hp hc hn hk hx hin
  have h0 : s = atChar s 0 s.idle (frameWait s rest 0) := by
    rw [frameWait_of_lt hn, Nat.sub_zero, ← hin]
    exact (atChar_zero hk hx).symm
  have hstep := fun j i (hj : j < s.txlen.toNat) => step_frameWait hr hp hc hj i rest
  refine ⟨fun j hj => ?_, _, runSteps_frame hc h0 hstep hn, ?_⟩
  · obtain ⟨i, hrun⟩ := runSteps_atChar hc h0 hstep j hj
    exact ⟨_, hrun, hp, by simp [de, atChar, hp], by simp [reN, atChar, hp], rfl, rfl, frameWait_of_lt hj rest⟩
  · rw [frameWait_end]
    by_cases ho : s.op = some 0x33
    · rw [afterFrame_send ho]
      exact ⟨rfl, rfl, rfl, rfl, rfl, rfl, fun _ => ⟨rfl, rfl, rfl, rfl⟩, absurd ho⟩
    · rw [afterFrame_xchg ho]
      exact ⟨rfl, rfl, rfl, rfl, rfl, rfl, (absurd · ho), fun _ => ⟨rfl, rfl⟩⟩

/-- Settles O39: the engine's step, at most two steps to the silence, and one step a character. -/
theorem sendCompletes : Obligations.SendCompletes := by
  intro s a b h hr hp hd ho h1 h256 hc hin hlater
  obtain ⟨hx, -⟩ := MachineInv.line_of_not_tx h (by simp [hp])
  have hstart : step s = .next (startExchange s) :=
    (stepRunsDecodedCommand.2.1 s _ hr hp hin hd).trans (exec_send_starts a b ho (txlenInvalid_eq_false h1 h256))
  have hq : QuietLine (startExchange s) := ⟨hr, ho, hc, hin, hlater⟩
  obtain ⟨m, hm, r, hrun⟩ := hq.runSteps_send rfl hx h1 (MachineInv.op_of_decode h hp hd)
  rw [startExchange_txlen] at hm
  exact ⟨1 + m, _, by omega, (runSteps_add (runSteps_one hstart)).trans hrun, rfl, rfl, rfl, rfl, rfl, rfl,
    rfl, ho, rfl, rfl⟩

/-- Settles O40: the same steps for XCHG, and at most two more to the timeout. -/
theorem unansweredExchangeTimesOut : Obligations.UnansweredExchangeTimesOut := by
  intro s a b h hr hp hd ho h1 h256 hc hin hlater
  obtain ⟨hx, -⟩ := MachineInv.line_of_not_tx h (by simp [hp])
  have hstart : step s = .next (startExchange { s with ovf := false }) :=
    (stepRunsDecodedCommand.2.1 s _ hr hp hin hd).trans (exec_xchg_starts a b ho (txlenInvalid_eq_false h1 h256))
  have hq : QuietLine (startExchange { s with ovf := false }) := ⟨hr, ho, hc, hin, hlater⟩
  have hop : s.op ≠ some 0x33 := by simp [MachineInv.op_of_decode h hp hd, opcodeOf]
  obtain ⟨m, hm, i, r, hrun⟩ := hq.runSteps_xchg rfl hx h1 hop
  rw [startExchange_txlen] at hm
  exact ⟨1 + m, _, by simp only at hm; omega, (runSteps_add (runSteps_one hstart)).trans hrun, rfl, rfl, rfl, rfl,
    rfl, ho, rfl, rfl, hc, rfl⟩

end Sys2Proof.Proofs
end
section
/-! SUPPORT. A whole reply received (R114, R118, R121). -/

namespace Sys2Proof.Machine

open Sys2Proof.Safety

/-- A reception goes on while the line is not silent and the timeout not reached. -/
theorem transitionNow_receiving_none {s : State} (hp : s.phase = .rxWait ∨ s.phase = .rxActive)
    (hx : s.txShift = none) (hto : s.resp < s.timeout.toNat * 48)
    (hline : s.phase = .rxActive → s.lineChar = none → s.idle < s.silence.toNat * 5) : transitionNow s = none := by
  rcases hp with hp | hp
  · exact transitionNow_rxWait_none hp hto
  · refine transitionNow_rxActive_none hp hx ?_
    rintro (⟨hc, hi⟩ | h)
    · have := hline hp hc
      omega
    · omega

/-- Between two characters of a reply, or before the first: the receiver is on, and silence and timeout are some way
off. -/
structure Listening (s : State) : Prop where
  outOfReset : s.rstN = true
  isOpen : s.opened = true
  free : s.lineChar = none
  sendsNothing : s.txShift = none
  receives : s.phase = .rxWait ∨ s.phase = .rxActive
  notSilent : s.phase = .rxActive → s.idle < s.silence.toNat * 5

/-- `t` is `s` after the good characters `bs` back to back, `l` being still to come: RXBUF[RXLEN..) holds them, and
nothing else of memory has changed. -/
structure Replied (s : State) (bs : List Byte) (l : List Input) (t : State) : Prop where
  count : t.rxlen.toNat = s.rxlen.toNat + bs.length
  stored : ∀ j (h : j < bs.length), rxByte t (s.rxlen.toNat + j) = bs[j]
  kept : ∀ a, (∀ j, j < bs.length → a ≠ rxOffset (s.rxlen.toNat + j)) → byteAt t a = byteAt s a
  rest : t = { s with
    mem := t.mem, rxlen := t.rxlen, idle := 0, resp := s.resp + 55 * bs.length, phase := .rxActive, inputs := l }

/-- After the last of some characters the receiver listens for the next. -/
theorem Replied.listening {s t : State} {bs : List Byte} {l : List Input} (h : Replied s bs l t) (hs : Listening s)
    (hsil : 1 ≤ s.silence.toNat) : Listening t := by
  rw [h.rest]
  exact ⟨hs.outOfReset, hs.isOpen, hs.free, hs.sendsNothing, .inr rfl, fun _ => by simp only; omega⟩

/-- One character, then others. -/
theorem Replied.cons {s u t : State} {b : Byte} {bs : List Byte} {l l' : List Input} (h : Replied s [b] l u)
    (h' : Replied u bs l' t) : Replied s (b :: bs) l' t := by
  have hcount : u.rxlen.toNat = s.rxlen.toNat + 1 := h.count
  have hnext (j : Nat) : s.rxlen.toNat + (j + 1) = u.rxlen.toNat + j := by omega
  refine ⟨?_, fun j hj => ?_, fun a ha => ?_, ?_⟩
  · rw [h'.count, hcount, List.length_cons]
    omega
  · cases j with
    | zero =>
      have hkept := h'.kept (rxOffset (s.rxlen.toNat + 0)) (fun j _ => by unfold rxOffset; omega)
      exact hkept.trans (h.stored 0 (by simp))
    | succ j =>
      rw [hnext]
      exact h'.stored j (by simpa using hj)
  · have h0 := h.kept a (fun j hj => ha j (by simp at hj ⊢; omega))
    exact (h'.kept a (fun j hj => hnext j ▸ ha (j + 1) (by simpa using hj))).trans h0
  · have hresp : s.resp + 55 + 55 * bs.length = s.resp + 55 * (bs.length + 1) := by omega
    rw [h'.rest, h.rest]
    simp [hresp]

/-- The receiver listens, and a good character comes: two steps store it. -/
theorem Listening.runSteps_char {s : State} {b : Byte} {l : List Input} (h : Listening s)
    (hin : s.inputs = .charStart b (evenParity b) true :: .wait 55 :: l) (hf : s.rxlen.toNat < 256)
    (hto : s.resp + 55 ≤ s.timeout.toNat * 48) : ∃ t, runSteps 2 s = some t ∧ Replied s [b] l t := by
  have hne : s.phase ≠ .tx := by rcases h.receives with hp | hp <;> simp [hp]
  have hbegin := step_charStart
    ⟨h.outOfReset, transitionNow_receiving_none h.receives h.sendsNothing (by omega) (fun hp _ => h.notSilent hp), hin⟩
    h.free
  obtain ⟨t, hend, hstored, -, ht⟩ := Proofs.receivedCharacterIsStored
    { s with
      lineChar := some
        { data := b, parity := evenParity b, stop := true, elapsed := 0, heard := s.opened && s.phase != .tx }
      inputs := .wait 55 :: l } _ 55 l
    ⟨h.outOfReset, transitionNow_receiving_none h.receives h.sendsNothing (by simp only; omega) (by simp), rfl⟩
    (by simp) h.receives h.isOpen h.sendsNothing rfl (by simp [h.isOpen, hne]) (by simp) (by simpa using hto)
  obtain ⟨hbyte, hlen, hovf, hkept⟩ := hstored hf
  refine ⟨t, runSteps_two hbegin hend, hlen, fun j hj => ?_, fun a ha => hkept a (ha 0 (by simp)), ?_⟩
  · obtain rfl : j = 0 := by simpa using hj
    exact hbyte
  · rw [ht, hovf]
    simp [h.free]

/-- The receiver listens, and some good characters come back to back: two steps a character store them. -/
theorem Listening.runSteps_reply {l : List Input} (bs : List Byte) : ∀ {s : State} {b : Byte}, Listening s →
    s.inputs = replyInputs (b :: bs) ++ l → s.rxlen.toNat + (b :: bs).length ≤ 256 →
    s.resp + 55 * (b :: bs).length ≤ s.timeout.toNat * 48 → 1 ≤ s.silence.toNat →
    ∃ t, runSteps (2 * (b :: bs).length) s = some t ∧ Replied s (b :: bs) l t := by
  induction bs with
  | nil =>
    intro s b h hin hf hto _
    exact h.runSteps_char hin (by simp at hf; omega) (by simpa using hto)
  | cons b' bs ih =>
    intro s b h hin hf hto hsil
    simp only [List.length_cons] at hf hto ih ⊢
    obtain ⟨u, hrun, hu⟩ := h.runSteps_char (l := replyInputs (b' :: bs) ++ l) hin (by omega) (by omega)
    have hlen : u.rxlen.toNat = s.rxlen.toNat + 1 := hu.count
    have hkeep : u.inputs = replyInputs (b' :: bs) ++ l ∧ u.resp = s.resp + 55 ∧ u.timeout = s.timeout ∧
        u.silence = s.silence := by
      rw [hu.rest]
      exact ⟨rfl, rfl, rfl, rfl⟩
    obtain ⟨hin', hresp, htime, hsilence⟩ := hkeep
    obtain ⟨t, hrun', ht⟩ := ih (hu.listening h hsil) hin' (by omega) (by rw [hresp, htime]; omega) (hsilence ▸ hsil)
    refine ⟨t, ?_, hu.cons ht⟩
    rw [show 2 * (bs.length + 1 + 1) = 2 + 2 * (bs.length + 1) by omega, runSteps_add hrun, hrun']

/-- The line falls silent before the timeout: two steps end the reception. -/
theorem Listening.runSteps_silence {s : State} {l : List Input} (h : Listening s) (hp : s.phase = .rxActive)
    (hi : s.idle = 0) (hin : s.inputs = .wait (5 * s.silence.toNat) :: l) (hsil : 1 ≤ s.silence.toNat)
    (hto : s.resp + 5 * s.silence.toNat ≤ s.timeout.toNat * 48) :
    runSteps 2 s = some (complete (receptionCode s) { s with
      resp := s.resp + 5 * s.silence.toNat, idle := s.idle + 5 * s.silence.toNat, inputs := l }) := by
  have hturn : HasTurn s (.wait (5 * s.silence.toNat)) l :=
    ⟨h.outOfReset, transitionNow_receiving_none h.receives h.sendsNothing (by omega) (fun hp _ => h.notSilent hp), hin⟩
  have hwait := step_wait_quiet hturn h.isOpen h.free h.sendsNothing (by omega) (fun _ => hto)
  have hend := transitionNow_rxActive (s := { s with
    resp := s.resp + 5 * s.silence.toNat, idle := s.idle + 5 * s.silence.toNat, inputs := l }) hp h.sendsNothing
    (.inl ⟨h.free, by simp only; omega⟩)
  exact runSteps_two hwait (step_transition h.outOfReset hend)

/-- Four or more characters and none dropped: the reception ends with OK (R118). -/
theorem receptionCode_ok {s : State} (ho : s.ovf = false) (hl : 4 ≤ s.rxlen.toNat) : receptionCode s = .ok := by
  have hlong : ¬s.rxlen.toNat < Config.minFrame := by simpa using hl
  simp [receptionCode, ho, hlong]

/-- RXBUF[0..n) holds a byte sequence of length `n` whose bytes it holds. -/
theorem rxBytes_eq_of_stored {s : State} {bs : List Byte} (h : ∀ j (hj : j < bs.length), rxByte s j = bs[j]) :
    rxBytes s 0 bs.length = bs :=
  List.ext_getElem (by simp) fun j h1 h2 => by simpa using h j h2

end Sys2Proof.Machine

namespace Sys2Proof.Proofs

open Sys2Proof.Machine Sys2Proof.Safety

/-- Settles O38: two steps a character, the wait to the silence, and the end of the reception. -/
theorem exchangeReceivesReply : Obligations.ExchangeReceivesReply := by
  intro s reply rest hr ho hp hc hx hlen hovf hsil h4 h256 hto hin
  obtain ⟨b, bs, rfl⟩ : ∃ b bs, reply = b :: bs := List.exists_cons_of_length_pos (by omega)
  have hlen0 : s.rxlen.toNat = 0 := by rw [hlen]; rfl
  have hlisten : Listening s := ⟨hr, ho, hc, hx, .inl hp, by simp [hp]⟩
  obtain ⟨t, hrun, ht⟩ := hlisten.runSteps_reply bs hin (by omega) (by omega) hsil
  have hkeep : t.inputs = .wait (5 * t.silence.toNat) :: rest ∧ t.resp = s.resp + 55 * (b :: bs).length ∧
      t.timeout = s.timeout ∧ t.silence = s.silence ∧ t.idle = 0 ∧ t.phase = .rxActive ∧ t.ovf = false ∧
      t.rxerr = s.rxerr ∧ t.late = s.late ∧ t.txlen = s.txlen := by
    rw [ht.rest]
    exact ⟨rfl, rfl, rfl, rfl, rfl, rfl, hovf, rfl, rfl, rfl⟩
  obtain ⟨hin', hresp, htime, hsilence, hidle, hpt, hovf', hrxerr, hlate, htxlen⟩ := hkeep
  have hcount : t.rxlen.toNat = (b :: bs).length := by rw [ht.count, hlen0, Nat.zero_add]
  have hbytes : rxBytes t 0 (b :: bs).length = b :: bs :=
    rxBytes_eq_of_stored fun j hj => by simpa [hlen0] using ht.stored j hj
  have hlt := ht.listening hlisten hsil
  have hend := hlt.runSteps_silence hpt hidle hin' (hsilence ▸ hsil) (by rw [hresp, htime, hsilence]; omega)
  exact ⟨_, (runSteps_add hrun).trans hend, receptionCode_ok hovf' (by omega), rfl, rfl, rfl, hlt.isOpen, hcount,
    hbytes, hrxerr, hlate, htxlen, rfl, fun a ha => ht.kept a (by simpa [hlen0] using ha)⟩

end Sys2Proof.Proofs
end
section
/-! SUPPORT. What the session commands answer: the frame of a template encoder (R126 to R128), and CHK (R129). -/

namespace Sys2Proof.Machine

open Sys2Proof.Safety

/-! ### The template encoders -/

/-- A template encoder's answer: the frame of its payload in TXBUF, TXLEN and REQ, and nothing else (R100). -/
theorem encodePayload_builds (a f : Byte) (payload : List Byte) (s : State) :
    ∃ t, encodePayload a f payload s = .next t ∧
      txBytes t 0 (payload.length + 4) = frameBytes a f payload ∧
      (∀ addr, (∀ j, j < payload.length + 4 → addr ≠ txOffset j) → byteAt t addr = byteAt s addr) ∧
      t = { s with
        mem := t.mem, txlen := BitVec.ofNat 9 (payload.length + 4), raddr := a, rfunc := f,
        code := .ok, phase := .idle, busy := false, done := true, op := none } :=
  ⟨_, encodePayload_eq a f payload s, txBytes_encodePayload a f payload s,
    fun addr h => congrArg (Option.getD · _) (get_encodePayload_other a f payload s addr h), rfl⟩

/-- The last two bytes of a frame in TXBUF are its CRC, low byte first (R82). -/
theorem txBytes_crc_of_frameBytes {t : State} {a f : Byte} {payload : List Byte}
    (h : txBytes t 0 (payload.length + 4) = frameBytes a f payload) :
    txBytes t (payload.length + 2) 2 = [lo8 (crc16 ([a, f] ++ payload)), hi8 (crc16 ([a, f] ++ payload))] := by
  have cut := txBytes_append t 0 (payload.length + 2) 2
  rw [Nat.zero_add] at cut
  exact (List.append_inj (cut.symm.trans h) (by simp)).2

/-- A field of a field is a field of the whole. -/
theorem extractLsb'_extractLsb' {w i m j n : Nat} (v : BitVec w) (h : j + n ≤ m) :
    (v.extractLsb' i m).extractLsb' j n = v.extractLsb' (i + j) n := by
  ext k hk
  simp [Nat.add_assoc, show j + k < m by omega]

/-- ARG.A16 and ARG.B16 big-endian, as the bytes of ARG (R35, R62). -/
theorem bigEndian_args (s : State) : bigEndian (argA s) ++ bigEndian (argB s) =
    [s.arg.extractLsb' 8 8, s.arg.extractLsb' 0 8, s.arg.extractLsb' 24 8, s.arg.extractLsb' 16 8] := by
  simp [bigEndian, argA, argB, hi8, lo8, extractLsb'_extractLsb']

/-! ### CHK -/

section
variable {x y : Byte} {s : State}

/-- What DEC raises ends CHK too, before the header tests. -/
theorem exec_chk_of_decodeReceived_ne_ok (h : (decodeReceived s).2 ≠ .ok) :
    exec (.chk x y) s = exec (.dec x y) s := by
  change execChk s = execDec s
  unfold execChk execDec
  split
  · next t hd => exact absurd (congrArg Prod.snd hd) h
  · next t c _ hd => rw [hd]

/-- A frame that decodes leaves CHK's code to the header tests. -/
theorem exec_chk_of_headerCode {c : ResultCode} (h : (decodeReceived s).2 = .ok)
    (hc : headerCode (decodeReceived s).1 = c) : exec (.chk x y) s = .next (complete c (decodeReceived s).1) := by
  change execChk s = _
  unfold execChk
  split
  · next t hd => rw [← hc, hd]; rfl
  · next t c hne hd => exact absurd ((congrArg Prod.snd hd).symm.trans h) hne

end

/-- DEC does not write REQ. -/
theorem decodeReceived_req (s : State) :
    (decodeReceived s).1.raddr = s.raddr ∧ (decodeReceived s).1.rfunc = s.rfunc := by
  obtain ⟨r, len, hd, -⟩ := decodeReceived_header s
  rw [hd]
  exact ⟨rfl, rfl⟩

/-! R129's tests in their order. -/

section
variable {t : State}

theorem headerCode_unexpectedAddress (ha : t.result.addr ≠ t.raddr) : headerCode t = .unexpectedAddress :=
  if_pos ha

theorem headerCode_deviceException (ha : t.result.addr = t.raddr) (hk : t.result.kind = .exception) :
    headerCode t = .deviceException :=
  (if_neg (not_not_intro ha)).trans (if_pos hk)

theorem headerCode_unexpectedFunction (ha : t.result.addr = t.raddr) (hk : t.result.kind ≠ .exception)
    (hf : t.result.func ≠ t.rfunc) : headerCode t = .unexpectedFunction :=
  (if_neg (not_not_intro ha)).trans ((if_neg hk).trans (if_pos hf))

theorem headerCode_ok (ha : t.result.addr = t.raddr) (hk : t.result.kind ≠ .exception)
    (hf : t.result.func = t.rfunc) : headerCode t = .ok :=
  (if_neg (not_not_intro ha)).trans ((if_neg hk).trans (if_neg (not_not_intro hf)))

end

end Sys2Proof.Machine

namespace Sys2Proof.Proofs

open Sys2Proof.Machine

/-- Settles O19: the template encoder on the four bytes of ARG. -/
theorem encRhrBuildsFrame : Obligations.EncRhrBuildsFrame := by
  intro a b s ha
  rw [exec_encRhr_valid ha, rhrPayload, bigEndian_args]
  exact encodePayload_builds a 0x03 _ s

/-- Settles O20: the template encoder on ARG, the byte count and WVAL. -/
theorem encWmrBuildsFrame : Obligations.EncWmrBuildsFrame := by
  intro a b s c ha h1 h123
  have hl : (wmrPayload s).length = 5 + 2 * c := wmrPayload_length s
  obtain ⟨t, hexec, hframe, hkept, hrest⟩ := encodePayload_builds a 0x10 (wmrPayload s) s
  have hlen : t.txlen = BitVec.ofNat 9 ((wmrPayload s).length + 4) := by rw [hrest]
  have hp : wmrPayload s = [s.arg.extractLsb' 8 8, s.arg.extractLsb' 0 8, s.arg.extractLsb' 24 8,
      s.arg.extractLsb' 16 8, BitVec.ofNat 8 (2 * c)] ++ wvalBytes s c := by
    rw [wmrPayload, bigEndian_args]
    rfl
  have hn : (wmrPayload s).length + 4 = 9 + 2 * c := by omega
  rw [hn] at hframe hkept
  refine ⟨t, (exec_encWmr_allowed ha ⟨h1, h123⟩).trans hexec, hp ▸ hframe, ?_, hkept, hlen ▸ hrest⟩
  rw [hlen, ofNat_frameLength (by omega), hn]

/-- Settles O21: the template encoder on the fixed payload; the CRC of addresses 0 and 1 is computed. -/
theorem encUnlBuildsFrame : Obligations.EncUnlBuildsFrame := by
  intro a b s
  refine ⟨fun ha => exec_encoder_invalidAddress (f := b) ha _ (by simp), fun ha => ?_⟩
  obtain ⟨t, hexec, hframe, hkept, hrest⟩ := encodePayload_builds a 0x28 unlockPayload s
  have hcrc := txBytes_crc_of_frameBytes hframe
  refine ⟨t, (exec_encUnl_valid ha).trans hexec, hframe, ?_, ?_, hkept, hrest⟩
  · rintro rfl
    exact hcrc.trans (by decide +kernel)
  · rintro rfl
    exact hcrc.trans (by decide +kernel)

/-- Settles O23: DEC's part raises a code or leaves the header to R129's tests, which read REQ as it was. -/
theorem checkResult : Obligations.CheckResult := by
  intro a b s
  obtain ⟨haddr, hfunc⟩ := decodeReceived_req s
  refine ⟨complete (decodeReceived s).2 (decodeReceived s).1, rfl, exec_chk_of_decodeReceived_ne_ok, fun hok => ?_⟩
  have hdec : (decodeReceived s).2 = .ok := hok
  rw [← haddr, ← hfunc, hdec]
  exact ⟨fun ha => exec_chk_of_headerCode hdec (headerCode_unexpectedAddress ha),
    fun ha hk => exec_chk_of_headerCode hdec (headerCode_deviceException ha hk),
    fun ha hk hf => exec_chk_of_headerCode hdec (headerCode_unexpectedFunction ha hk hf),
    fun ha hk hf => exec_chk_of_headerCode hdec (headerCode_ok ha hk hf)⟩

end Sys2Proof.Proofs
end
section
/-! SUPPORT. How BUSY, DONE and CODE change in a step: a command ends, the host clears DONE, or the host starts a
command (R74, R135, R137). -/

namespace Sys2Proof.Machine

open Sys2Proof.Safety

/-- `t` is where a command that runs in `s` ends, or BUSY, DONE and CODE are as in `s`. -/
inductive EndsOrKeeps (s : State) : State → Prop where
  /-- A command ends (R135). -/
  | ended (c : ResultCode) (u : State) (hp : s.phase ≠ .idle) : EndsOrKeeps s (complete c u)
  /-- BUSY, DONE and CODE stay. -/
  | kept {t : State} (hb : t.busy = s.busy) (hd : t.done = s.done) (hc : t.code = s.code) : EndsOrKeeps s t

/-- The start may be taken back over an operation that keeps BUSY, DONE and CODE and starts no phase. -/
theorem EndsOrKeeps.of_before {s u t : State} (h : EndsOrKeeps u t) (hb : u.busy = s.busy) (hd : u.done = s.done)
    (hc : u.code = s.code) (hp : u.phase ≠ .idle → s.phase ≠ .idle) : EndsOrKeeps s t := by
  cases h with
  | ended c v hu => exact .ended c v (hp hu)
  | kept hb' hd' hc' => exact .kept (hb'.trans hb) (hd'.trans hd) (hc'.trans hc)

/-- What is still to come does not matter. -/
theorem EndsOrKeeps.of_inputs {s t : State} {l : List Input} (h : EndsOrKeeps { s with inputs := l } t) :
    EndsOrKeeps s t :=
  h.of_before rfl rfl rfl id

/-! ### The engine -/

/-- A command that runs ends, or goes on with its wait for silence. -/
theorem Ran.endsOrKeeps {i : Instr} {s t : State} (h : Ran i s t) (hp : s.phase = .exec) : EndsOrKeeps s t := by
  have hne : s.phase ≠ .idle := by simp [hp]
  cases h with
  | starts => exact .kept rfl rfl rfl
  | nothing | crc | encoder | decoder | opens | closes => exact .ended _ _ hne

theorem engineMove_endsOrKeeps {s t : State} (h : engineMove s = .next t) : EndsOrKeeps s t := by
  rcases engineMove_cases h with ⟨-, rfl⟩ | ⟨hp, i, -, he⟩ | ⟨hp, -, rfl⟩
  · exact .kept rfl rfl rfl
  · exact (exec_ran he).endsOrKeeps hp
  · exact .ended _ _ (by simp [hp])

theorem transitionNow_endsOrKeeps {s t : State} (h : transitionNow s = some t) : EndsOrKeeps s t := by
  rcases transitionNow_cases h with ⟨-, -, rfl⟩ | ⟨hp, -, rfl⟩ | ⟨hp, -, rfl⟩
  · exact .kept rfl rfl rfl
  · exact .ended _ _ (by simp [hp])
  · exact .ended _ _ (by simp [hp])

/-! ### Time -/

/-- At the end of phase TX, SEND ends and XCHG goes on (R112). -/
theorem endTx_endsOrKeeps {s : State} (hp : s.phase = .tx) : EndsOrKeeps s (endTx s) := by
  by_cases ho : s.op = some 0x33
  · rw [endTx_send ho]
    exact .ended _ _ (by simp [hp])
  · rw [endTx_xchg ho]
    exact .kept rfl rfl rfl

/-- At the end of a character in phase TX the next one begins, or the phase ends (R112). -/
theorem endChar_endsOrKeeps {s : State} (hp : s.phase = .tx) : EndsOrKeeps s (endChar s) := by
  by_cases hk : s.k < s.txlen.toNat
  · rw [endChar_next hk]
    exact .kept rfl rfl rfl
  · rw [endChar_last hk]
    exact (endTx_endsOrKeeps (s := { s with idle := 0 }) hp).of_before rfl rfl rfl id

/-- On `txd` only the end of the last character can end a command. -/
theorem advanceTx_endsOrKeeps (n : Nat) {s : State} (htx : s.txShift.isSome = true → s.phase = .tx) :
    EndsOrKeeps s (advanceTx n s) := by
  unfold advanceTx
  split
  · exact .kept rfl rfl rfl
  · next x hx =>
    have hp : s.phase = .tx := htx (by simp [hx])
    split
    · exact .kept rfl rfl rfl
    · exact endChar_endsOrKeeps hp

/-- The timers and the receiver end no command, so the transmitter alone can. -/
theorem advance_endsOrKeeps {s : State} (h : MachineInv s) (hr : s.rstN = true) (n : Nat) :
    EndsOrKeeps s (advance n s) := by
  have ht : MachineInv (advanceTimers n s) := MachineInv.of_agree h hr rfl
  have hrx : MachineInv (advanceRx n (advanceTimers n s)) := MachineInv.advanceRx ht hr n
  refine (advanceTx_endsOrKeeps n hrx.sending.2).of_before (by simp) (by simp) (by simp) fun hp => ?_
  have hb : s.busy = true := by simpa using hrx.busyIffPhase.2 hp
  exact h.busyIffPhase.1 hb

theorem passTime_endsOrKeeps {s : State} (h : MachineInv s) (hr : s.rstN = true) (n : Nat) :
    EndsOrKeeps s (passTime n s) := by
  have hi : MachineInv { s with inputs := remainingWait (n - min n ((nextEvent s).getD n)) s.inputs } :=
    MachineInv.inputs h _
  exact (advance_endsOrKeeps hi hr _).of_inputs

/-! ### The other agents -/

theorem startChar_endsOrKeeps (d : Byte) (p q : Bool) (s : State) : EndsOrKeeps s (startChar d p q s) :=
  .kept (startChar_busy d p q s) (startChar_done d p q s) (startChar_code d p q s)

theorem hostRead_endsOrKeeps (p : BitVec 12) (s : State) : EndsOrKeeps s (hostRead p s) := by
  unfold hostRead
  split <;> exact .kept rfl rfl rfl

theorem refill_endsOrKeeps (s : State) : EndsOrKeeps s (refill s) := by
  rw [refill_eq]
  exact .kept rfl rfl rfl

/-- In reset no command runs, and DONE and CODE are at their reset values already (R147). -/
theorem applyInputInReset_endsOrKeeps {s : State} (h : MachineInv s) (hr : s.rstN = false) (i : Input) :
    EndsOrKeeps s (applyInputInReset i s) := by
  have hs := h.inReset hr
  cases i with
  | write | read | engine | phy => exact .kept rfl rfl rfl
  | wait n =>
    exact .kept (advanceRx_busy n (cutReception s)) (advanceRx_done n (cutReception s))
      (advanceRx_code n (cutReception s))
  | charStart d p q => exact startChar_endsOrKeeps d p q s
  | rst level =>
    cases level with
    | true =>
      exact .kept (congrArg State.busy hs).symm (congrArg State.done hs).symm (congrArg State.code hs).symm
    | false => exact .kept rfl rfl rfl

theorem unlessBusy_endsOrKeeps {s t : State} (h : s.busy = true ∨ EndsOrKeeps s t) :
    EndsOrKeeps s (unlessBusy s t) := by
  unfold unlessBusy
  split
  · exact .kept rfl rfl rfl
  · next hb => exact h.resolve_left hb

/-- A host write to STATUS, an accepted write to CMD, or one that leaves BUSY, DONE and CODE. -/
theorem hostWrite_completion (p : BitVec 12) (v : Word) (s : State) :
    (hostRegAt p = .status ∧ hostWrite p v s = clearStatus v s) ∨
    (hostRegAt p = .cmd ∧ s.busy = false ∧ hostWrite p v s = accept v s) ∨
    EndsOrKeeps s (hostWrite p v s) := by
  unfold hostWrite
  cases hostRegAt p with
  | status => exact .inl ⟨rfl, rfl⟩
  | cmd =>
    by_cases hb : s.busy = true
    · exact .inr (.inr (unlessBusy_endsOrKeeps (.inl hb)))
    · exact .inr (.inl ⟨rfl, Bool.eq_false_of_not_eq_true hb, if_neg hb⟩)
  | arg | crc | timeout | silence | req | txlen | wval | txbuf =>
    exact .inr (.inr (unlessBusy_endsOrKeeps (.inr (.kept rfl rfl rfl))))
  | ctrl | rxlen | result | rplen | rxbuf | reserved => exact .inr (.inr (.kept rfl rfl rfl))

/-! ### The step -/

/-- A step that ends out of reset: a command ends, or BUSY, DONE and CODE stay, but for a host write to STATUS and the
acceptance of a command. -/
theorem step_completion {s t : State} (h : MachineInv s) (hs : step s = .next t) (ht : t.rstN = true) :
    EndsOrKeeps s t ∨
    (∃ v rest, HostWrites s 1 v rest ∧ t = clearStatus v { s with inputs := rest }) ∨
    (∃ w rest, HostWrites s 2 w rest ∧ s.busy = false ∧ t = accept w { s with inputs := rest }) := by
  rcases step_cases hs with ⟨-, hn⟩ | ⟨hr, -, -, hrest⟩ | ⟨i, rest, hr, hn, hi, ha⟩ | ⟨-, -, rfl⟩ |
    ⟨i, rest, hr, -, rfl⟩
  · exact .inl (transitionNow_endsOrKeeps hn)
  · rcases hrest with ⟨-, hm⟩ | ⟨-, -, rfl⟩ | ⟨-, -, rfl⟩
    · exact .inl (engineMove_endsOrKeeps hm)
    · exact .inl (refill_endsOrKeeps s)
    · exact .inl (passTime_endsOrKeeps h hr _)
  · cases i with
    | write p v =>
      cases ha
      have hturn : HasTurn s (.write p v) rest := ⟨hr, hn, hi⟩
      rcases hostWrite_completion p v { s with inputs := rest } with ⟨hp, he⟩ | ⟨hp, hb, he⟩ | hk
      · exact .inr (.inl ⟨v, rest, hostWrites_of_turn hturn hp (by decide), he⟩)
      · exact .inr (.inr ⟨v, rest, hostWrites_of_turn hturn hp (by decide), hb, he⟩)
      · exact .inl hk.of_inputs
    | read p => cases ha; exact .inl (hostRead_endsOrKeeps p { s with inputs := rest }).of_inputs
    | engine => exact .inl (engineMove_endsOrKeeps ha).of_inputs
    | wait n => cases ha; exact .inl (passTime_endsOrKeeps (MachineInv.inputs h rest) hr n).of_inputs
    | charStart d p q => cases ha; exact .inl (startChar_endsOrKeeps d p q { s with inputs := rest }).of_inputs
    | rst level =>
      cases level with
      | true => cases ha; exact .inl (.kept rfl rfl rfl)
      | false => cases ha; cases ht
    | phy level => cases ha; exact .inl (.kept rfl rfl rfl)
  · exact .inl (refill_endsOrKeeps s)
  · exact .inl (applyInputInReset_endsOrKeeps (MachineInv.inputs h rest) hr i).of_inputs

end Sys2Proof.Machine

namespace Sys2Proof.Proofs

open Sys2Proof.Machine Sys2Proof.Safety

/-- Settles O50: of the moves that change DONE a command's end sets it, and the host's two writes clear it. -/
theorem interruptFollowsCompletion : Obligations.InterruptFollowsCompletion := by
  refine ⟨fun s => rfl, fun s t h hs _ ht => ?_⟩
  rcases step_completion h hs ht with hk | ⟨v, rest, hw, rfl⟩ | ⟨w, rest, hw, hb, rfl⟩
  · cases hk with
    | ended c u hp => exact ⟨fun _ _ => ⟨hp, rfl, rfl⟩, fun _ h0 => absurd h0 (by simp)⟩
    | kept _ hd _ => exact ⟨fun h0 h1 => by simp [hd, h0] at h1, fun h1 h0 => by simp [hd, h1] at h0⟩
  · exact ⟨fun h0 h1 => by simp [h0] at h1, fun h1 h0 => .inl ⟨v, rest, hw, written_one h1 h0⟩⟩
  · exact ⟨fun _ h1 => absurd h1 (by simp), fun _ _ => .inr ⟨w, rest, hw, hb, rfl⟩⟩

/-- Settles O51: BUSY falls and CODE changes in a command's end only, and that end is R135's. -/
theorem everyCommandEndsInCompletion : Obligations.EveryCommandEndsInCompletion := by
  intro s t h hs ht
  rcases step_completion h hs ht with hk | ⟨v, rest, -, rfl⟩ | ⟨w, rest, -, hb, rfl⟩
  · cases hk with
    | ended c u hp => exact ⟨fun _ _ => ⟨rfl, rfl, rfl⟩, fun _ => ⟨h.busyIffPhase.2 hp, rfl⟩⟩
    | kept hb _ hc => exact ⟨fun h1 h0 => by simp [hb, h1] at h0, absurd hc⟩
  · exact ⟨fun h1 h0 => by simp [h1] at h0, absurd rfl⟩
  · exact ⟨fun h1 _ => by simp [hb] at h1, absurd rfl⟩

end Sys2Proof.Proofs
end
section
/-! SUPPORT. Reset (R147, R148): the block's fields at their reset values, and what each input leaves of that while
`rst_n` = 0. -/

namespace Sys2Proof.Machine

open Sys2Proof.Safety

/-- Every field that is the block's has its reset value; the pins the outside drives, the line and the model's own
fields are as they are. -/
def AtReset (t : State) : Prop :=
  t = { State.reset with
    lineChar := t.lineChar, rstN := t.rstN, phyOk := t.phyOk, draws := t.draws, epoch := t.epoch,
    inputs := t.inputs, later := t.later }

theorem resetBlock_atReset (s : State) (b : Bool) : AtReset { resetBlock s with rstN := b } := rfl

/-- A change of the fields that are not the block's. -/
theorem AtReset.of_agree {s t : State} (h : AtReset s)
    (ht : t = { s with
      lineChar := t.lineChar, rstN := t.rstN, phyOk := t.phyOk, draws := t.draws, epoch := t.epoch,
      inputs := t.inputs, later := t.later }) : AtReset t :=
  ht.trans (congrArg (fun u : State => { u with
    lineChar := t.lineChar, rstN := t.rstN, phyOk := t.phyOk, draws := t.draws, epoch := t.epoch,
    inputs := t.inputs, later := t.later }) h)

theorem AtReset.inputs {s : State} (h : AtReset s) (l : List Input) : AtReset { s with inputs := l } := h.of_agree rfl

/-- Time on `rxd` after the receiver is cut changes the line alone (R113). -/
theorem advanceRx_cutReception_eq (n : Nat) (s : State) :
    advanceRx n (cutReception s) = { s with lineChar := (advanceRx n (cutReception s)).lineChar } := by
  have hcut : ∀ c, (cutReception s).lineChar = some c → c.elapsed + n < 55 ∨ c.heard = false := by
    intro c hc
    obtain ⟨l, -, rfl⟩ := Option.map_eq_some_iff.1 hc
    exact .inr rfl
  rw [advanceRx_of_no_reception hcut]
  rfl

theorem startChar_eq (d : Byte) (p q : Bool) (s : State) :
    startChar d p q s = { s with lineChar := (startChar d p q s).lineChar } := by
  unfold startChar
  split <;> rfl

/-- In reset every input leaves the block at its reset state; a read puts 0 on `prdata`, which is there already. -/
theorem AtReset.applyInputInReset {s : State} (h : AtReset s) (i : Input) : AtReset (applyInputInReset i s) := by
  cases i with
  | write | engine => exact h
  | read p => exact congrArg (fun u : State => { u with prdata := 0 }) h
  | wait n => exact h.of_agree (by rw [Machine.applyInputInReset, advanceRx_cutReception_eq])
  | charStart d p q => exact h.of_agree (by rw [Machine.applyInputInReset, startChar_eq])
  | rst level =>
    cases level with
    | true => exact resetBlock_atReset s true
    | false => exact h
  | phy level => exact h.of_agree rfl

theorem applyInputInReset_inputs (i : Input) (s : State) : (applyInputInReset i s).inputs = s.inputs := by
  cases i with
  | write | read | engine | phy => rfl
  | wait n => exact advanceRx_inputs n (cutReception s)
  | charStart d p q => exact startChar_inputs d p q s
  | rst level => cases level <;> rfl

/-- Only `rst_n` going to 1 ends the reset. -/
theorem applyInputInReset_rstN (i : Input) {s : State} (hr : s.rstN = false) :
    (applyInputInReset i s).rstN = decide (i = .rst true) := by
  cases i with
  | write | read | engine | phy => exact hr
  | wait n => exact (advanceRx_rstN n (cutReception s)).trans hr
  | charStart d p q => exact (startChar_rstN d p q s).trans hr
  | rst level =>
    cases level with
    | true => rfl
    | false => exact hr

/-- But for DONE the reset state is that of a command that has just ended with OK (R135). -/
theorem MachineInv.complete_reset : MachineInv (Machine.complete .ok State.reset) :=
  MachineInv.of_complete .ok rfl (by simp [InMap, State.reset]) (by decide) (by decide) rfl
    (by simp [State.reset]) ⟨rfl, rfl⟩ (fun _ => rfl) rfl

end Sys2Proof.Machine

namespace Sys2Proof.Proofs

open Sys2Proof.Machine Sys2Proof.Safety

/-- Settles O48: the state of R148's table, item by item in the statement's order; no
byte is listed in its memory, so each reads as a free value (R60). -/
theorem resetState : Obligations.ResetState :=
  ⟨rfl, rfl, rfl, rfl, rfl, rfl,
    rfl, rfl, rfl, rfl, rfl, rfl,
    rfl, rfl, rfl, rfl, rfl, rfl, rfl,
    rfl, rfl, rfl, rfl, rfl, rfl, rfl,
    rfl, rfl, rfl, rfl, rfl, rfl,
    rfl, rfl,
    fun _ => rfl⟩

/-- Settles O58: nothing runs after reset, as after a command's end; DONE = 0 is the only difference. -/
theorem invariantAtReset : Obligations.InvariantAtReset :=
  { MachineInv.complete_reset with
    notDoneWhileBusy := fun _ => rfl
    inReset := fun hr => absurd hr (by decide) }

/-- Settles O49: asserting `rst_n` resets the block, and in reset each input leaves it so. -/
theorem resetAbandonsEverything : Obligations.ResetAbandonsEverything := by
  refine ⟨fun s rest ⟨hr, hn, hi⟩ => ?_, fun s i rest hr hs hi => ?_⟩
  · exact ⟨_, step_input hr hn hi, rfl, rfl, rfl, resetBlock_atReset { s with inputs := rest } false⟩
  · have hrst := applyInputInReset_rstN i (s := { s with inputs := rest }) hr
    exact ⟨_, step_input_inReset hr hi, applyInputInReset_inputs i _,
      AtReset.applyInputInReset (AtReset.inputs hs rest) i,
      fun hne => hrst.trans (decide_eq_false hne), fun heq => hrst.trans (decide_eq_true heq)⟩

end Sys2Proof.Proofs
end

section
/-! SUPPORT. Every step answers a next state: no agent's move faults or is refused (O6). -/

namespace Sys2Proof.Machine

/-- The engine's move answers a next state: a command's rule does, and an illegal word completes (R77). -/
theorem engineMove_next (s : State) : ∃ t, engineMove s = .next t := by
  cases hp : s.phase with
  | exec =>
    cases hd : decode s.cmd with
    | ok i =>
      obtain ⟨t, ht⟩ := exec_next i s
      exact ⟨t, (engineMove_ok hp hd).trans ht⟩
    | error e => exact ⟨_, engineMove_error hp hd⟩
  | idle | waitIdle | tx | rxWait | rxActive => exact ⟨s, by rw [engineMove, hp]⟩

/-- The move with no input left answers a next state. -/
theorem restMove_next (s : State) : ∃ t, restMove s = .next t := by
  cases hp : s.phase with
  | exec =>
    obtain ⟨t, ht⟩ := engineMove_next s
    exact ⟨t, by rw [restMove, hp, ht]⟩
  | idle | waitIdle | tx | rxWait | rxActive => exact ⟨idleMove s, by rw [restMove, hp]⟩

/-- Every input's effect is a next state. -/
theorem applyInput_next (i : Input) (s : State) : ∃ t, applyInput i s = .next t := by
  cases i with
  | engine => exact engineMove_next s
  | write | read | wait | charStart | rst | phy => exact ⟨_, rfl⟩

end Sys2Proof.Machine

namespace Sys2Proof.Proofs

open Sys2Proof.Machine Sys2Proof.Safety

/-- Settles O6: in reset every move is total, and out of it a due transition, the next input and the move with no
input left each answer a next state. -/
theorem everyStepAnswers : Obligations.EveryStepAnswers := by
  intro s
  cases hr : s.rstN with
  | false =>
    cases hi : s.inputs with
    | nil => exact ⟨_, step_rest_inReset hr hi⟩
    | cons i rest => exact ⟨_, step_input_inReset hr hi⟩
  | true =>
    cases hn : transitionNow s with
    | some t => exact ⟨t, step_transition hr hn⟩
    | none =>
      cases hi : s.inputs with
      | nil => exact step_rest hr hn hi ▸ restMove_next s
      | cons i rest => exact step_input hr hn hi ▸ applyInput_next i { s with inputs := rest }

end Sys2Proof.Proofs
end
